-- ==== Sys2Proof/Word.lean ====
section
/-!
DEFINITION. The word types of the SP-420 (section 4 of the scope chapter) and tables of fixed length.
-/
namespace Sys2Proof

abbrev Byte := BitVec 8
/-- A stamp: a 36-bit count of 100 ns ticks, all arithmetic modulo 2^36 (section 4.2). -/
abbrev Stamp := BitVec 36
/-- Station time: a 32-bit count of milliseconds (section 4.3). -/
abbrev Ms := BitVec 32
/-- A ring sequence number, counted modulo 2^32 (section 5.3). -/
abbrev Seq := BitVec 32

abbrev InLaneId := Fin 4
abbrev OutLaneId := Fin 2
abbrev RouteId := Fin 256
abbrev SvcId := Fin 64
abbrev EventId := Fin 256
abbrev ClipId := Fin 512
abbrev WindowId := Fin 8
abbrev SlotId := Fin 16
abbrev AlertId := Fin 8
abbrev LineId := Fin 8
abbrev CounterId := Fin 16
abbrev ChannelId := Fin 4

/-- A number as an index of a table of `n` entries, if it is in range. -/
def index? (n k : Nat) : Option (Fin n) := if h : k < n then some ⟨k, h⟩ else none

/-- A table of `n` records. -/
abbrev Tbl (α : Type) (n : Nat) := Vector α n

namespace Tbl
variable {α : Type} {n : Nat}

def get (t : Tbl α n) (i : Fin n) : α := t[i.val]
def put (t : Tbl α n) (i : Fin n) (x : α) : Tbl α n := t.set i.val x

/-- The positions, ascending from `i`, of the entries of `l` that satisfy `p`. -/
def idxFrom (p : Fin n → α → Bool) : (l : List α) → (i : Nat) → i + l.length ≤ n → List (Fin n)
  | [], _, _ => []
  | a :: l, i, h =>
    have hi : i < n := by simp only [List.length_cons] at h; omega
    have hl : i + 1 + l.length ≤ n := by simp only [List.length_cons] at h; omega
    if p ⟨i, hi⟩ a then ⟨i, hi⟩ :: idxFrom p l (i + 1) hl else idxFrom p l (i + 1) hl

/-- The indices, ascending, of the entries that satisfy `p`. -/
def indices (t : Tbl α n) (p : Fin n → α → Bool) : List (Fin n) :=
  idxFrom p t.toList 0 (by simp)

/-- The lowest index whose entry satisfies `p`. -/
def find? (t : Tbl α n) (p : Fin n → α → Bool) : Option (Fin n) := (t.indices p).head?

end Tbl
end Sys2Proof
end

