-- ==== Sys2Proof/Config.lean ====
section
/-!
DEFINITION. The fixed numbers of the part, and the values that its manual leaves open (free values: opaque, so
that no proof can see them).
-/
namespace Sys2Proof.Config

/-- Cells a feeder slot's ring holds at most (R103). -/
def ringCells : Nat := 32
/-- Cells a ring must hold before an ad exit, and at which a loss reader attaches (R26, R96). -/
def prefillCells : Nat := 8
/-- The lag beyond which a reader slips (R104). -/
def slipLag : Nat := 24
/-- Cells of one network FIFO (R128). -/
def fifoCells : Nat := 256
/-- Response cells of one control channel, reservations counted (R173). -/
def queueCells : Nat := 16
/-- The fixed retry limit of the STORE record (section 6.1). -/
def retryLimit : Nat := 8
/-- Station milliseconds of a rate window (section 4.3). -/
def windowMs : Nat := 10
/-- The free-run limit of a clock model, in milliseconds (R80, R81). -/
def holdSpan : Nat := 1048576
/-- Payload bytes of a cell and bytes of a cell (section 4.4). -/
def payloadBytes : Nat := 240
def cellBytes : Nat := 256
/-- Vendor code, part code and revision of the PART record (R185). -/
def vendorCode : Nat := 0x0E7
def partCode : Nat := 0x420
def revision : Nat := 0x01

/-- FREE VALUE (log entry 12). What a written yes/no byte other than 0 and 1 is taken as: section 10.7 gives the
encoding of yes (1) and of no (0) and is silent on any other byte received. -/
opaque oddFlag : Nat → Bool

/-- FREE VALUE (log entry 13). The bytes an emitted header shows in the place of an absent stamp: section 10.7 calls
bytes 4-8 and 9-13 meaningful when the stamp is present and gives them no content otherwise. -/
opaque absentStampByte : Nat → Byte

/-- FREE VALUE (log entry 42). Whether the next transfer of a cell had been issued on the bus when the cell's slot was
released, or a RESTART came, after an answer: R120 lets the release come between two bursts or find a burst under way,
and the issue of a burst is no row of the opcode table. The argument counts the free values taken so far. -/
opaque burstIssued : Nat → Bool

end Sys2Proof.Config
end

