-- ==== Sys2Proof/Syntax.lean ====
section
/-!
DEFINITION. The commands of the SP-420: one constructor for each row of spec/opcode_table.json, with the row's operands.
A record command (READ to RESTART) is one record of a control cell: its `Ctx` holds what the cell around it fixes.
-/
namespace Sys2Proof

/-- What the control cell around a record fixes: the channel, the effective class (R178), and the bytes left for
returned data in the response under construction (R177). -/
structure Ctx where
  ch : ChannelId
  cls : Fin 4
  room : Nat
deriving DecidableEq, Repr

/-- A written ROUTE entry but for its state (section 1.4). -/
structure RouteImg where
  inLane : Nat
  inTag : Nat
  outLane : Nat
  outTag : Nat
  allotment : Nat
  service : Option Nat
  guard : Nat
deriving DecidableEq, Repr

/-- The written configuration of a SERVICE entry (section 2.1). -/
structure ServiceImg where
  unitInt : Nat
  unitFrac : Nat
  preroll : Nat
  exitWindow : Nat
  returnWindow : Nat
  seamTolerance : Nat
  leadLimit : Nat
  lateLimit : Nat
  lossClip : Option Nat
  guard : Nat
deriving DecidableEq, Repr

/-- A written EVENT entry (section 3.1). `clipCount` is the list's count byte, `clips` the indices carried. -/
structure EventImg where
  state : Nat
  service : Nat
  trigger : Nat
  s : Option Stamp
  duration : Option Nat
  clipCount : Nat
  clips : List Nat
  force : Bool
  rehearse : Bool
  guard : Nat
deriving DecidableEq, Repr

/-- A written CLIP entry (section 5.2). -/
structure ClipImg where
  state : Nat
  window : Nat
  offset : Nat
  length : Nat
  c0 : Stamp
  cEnd : Stamp
  trim : Int
  guard : Nat
deriving DecidableEq, Repr

/-- A written WINDOW entry (section 5.1). -/
structure WindowImg where
  base : Nat
  length : Nat
  enabled : Bool
  guard : Nat
deriving DecidableEq, Repr

/-- A written ALERT entry (section 8.1). The group is the 64-bit number of section 10.7. -/
structure AlertImg where
  priority : Option Nat
  group : BitVec 64
  clip : Nat
  leaseCode : Nat
  masked : Bool
  guard : Nat
deriving DecidableEq, Repr

/-- A field of several forms: its form byte and its operand byte (section 10.7). -/
structure Form where
  form : Nat
  operand : Nat
deriving DecidableEq, Repr

/-- A written COUNTER entry (section 9.3). -/
structure CounterImg where
  source : Form
  gate : Form
  reload : Nat
  mode : Nat
  target : Form
  guard : Nat
deriving DecidableEq, Repr

/-- A written CUELINE entry (section 9.1). -/
structure CueLineImg where
  direction : Nat
  edge : Nat
  debounce : Nat
  tally : Form
  guard : Nat
deriving DecidableEq, Repr

/-- A written CHANNEL entry (section 10.1). -/
structure ChannelImg where
  enabled : Bool
  inLane : Nat
  inTag : Nat
  respLane : Nat
  respTag : Nat
  bound : Nat
deriving DecidableEq, Repr

/-- A written STORE record (section 6.1): its four settings. -/
structure StoreImg where
  fast : Bool
  tenureLimit : Nat
  gap : Nat
  dutyLimit : Nat
deriving DecidableEq, Repr

/-- The commands. Each docstring names its row of the opcode table. -/
inductive Instr where
  /-- POWER_ON_RESET: the strapped lane and the strapped tag offset (R171). -/
  | powerOnReset (lane : InLaneId) (offset : Fin 8)
  /-- STATION_TICK: bit n of `pins` is set when the pin of cue line n is HIGH at the tick (R159, R185). -/
  | stationTick (pins : BitVec 8)
  /-- DEBOUNCE_EDGE (R159). -/
  | debounceEdge (n : LineId)
  /-- CELL_ARRIVAL: a frame on an input lane, its bytes in order (R4). -/
  | cellArrival (lane : InLaneId) (bytes : List Byte)
  /-- LANE_LOSS (R5). -/
  | laneLoss (lane : InLaneId)
  /-- BACKSTOP (R35). -/
  | backstop (v : SvcId)
  /-- CLOCK_MODEL_HOLD (R81). -/
  | clockModelHold (v : SvcId)
  /-- WINDOW_START of one lane scheduler (R125). -/
  | windowStart (lane : OutLaneId)
  /-- OUTPUT_POSITION of one lane scheduler (R126). -/
  | outputPosition (lane : OutLaneId)
  /-- LEASE_LAPSE (R148). -/
  | leaseLapse (a : AlertId)
  /-- COUNTER_EXPIRY (R167). -/
  | counterExpiry (c : CounterId)
  /-- BUS_GRANT: the grant line is asserted; `busBusy` is the bus-busy line as another master drives it (R111). -/
  | busGrant (busBusy : Bool)
  /-- BURST_ANSWER: the answer lines, and the bytes the store returned, in address order (R116). -/
  | burstAnswer (ack error inhibit : Bool) (data : List Byte)
  /-- BACK_OFF (R117). -/
  | backOff
  /-- GAP_END (R118). -/
  | gapEnd
  /-- CONTROL_CELL_EXECUTE (R175). -/
  | controlCellExecute
  /-- READ: table code, index and field area (R180). -/
  | read (x : Ctx) (table index : Nat) (fields : List Byte)
  /-- POINT: table code and index (R182). -/
  | point (x : Ctx) (table index : Nat)
  /-- PUT: the field area (R182). -/
  | put (x : Ctx) (fields : List Byte)
  /-- GET: the field area (R182). -/
  | get (x : Ctx) (fields : List Byte)
  /-- WRITE in its general form: table code, index and field area (R181). -/
  | write (x : Ctx) (table index : Nat) (fields : List Byte)
  /-- ROUTE_WRITE_ACTIVE (R15). -/
  | routeWriteActive (x : Ctx) (index : Nat) (img : RouteImg)
  /-- ROUTE_WRITE_FREE: of the written fields only the guard is read (R16). -/
  | routeWriteFree (x : Ctx) (index : Nat) (guard : Nat)
  /-- SERVICE_WRITE: the written state's code and the written configuration (R21). -/
  | serviceWrite (x : Ctx) (index : Nat) (state : Nat) (img : ServiceImg)
  /-- SERVICE_ENABLE: a SERVICE write whose written state is NETWORK (R22). -/
  | serviceEnable (x : Ctx) (index : Nat) (img : ServiceImg)
  /-- SERVICE_DISABLE: a SERVICE write whose written state is OFF (R22). -/
  | serviceDisable (x : Ctx) (index : Nat) (img : ServiceImg)
  /-- EVENT_WRITE (R45). -/
  | eventWrite (x : Ctx) (index : Nat) (img : EventImg)
  /-- CLIP_WRITE (R88). -/
  | clipWrite (x : Ctx) (index : Nat) (img : ClipImg)
  /-- WINDOW_WRITE (R85). -/
  | windowWrite (x : Ctx) (index : Nat) (img : WindowImg)
  /-- ALERT_WRITE (R140). -/
  | alertWrite (x : Ctx) (index : Nat) (img : AlertImg)
  /-- COUNTER_WRITE (R163). -/
  | counterWrite (x : Ctx) (index : Nat) (img : CounterImg)
  /-- CUELINE_WRITE (R158). -/
  | cuelineWrite (x : Ctx) (index : Nat) (img : CueLineImg)
  /-- CHANNEL_WRITE (R172). -/
  | channelWrite (x : Ctx) (index : Nat) (img : ChannelImg)
  /-- INLANE_WRITE: the written loss timeout (R6). -/
  | inlaneWrite (x : Ctx) (index : Nat) (timeout : Nat)
  /-- OUTLANE_WRITE: the written capacity (R124). -/
  | outlaneWrite (x : Ctx) (index : Nat) (capacity : Nat)
  /-- STORE_WRITE (R108). -/
  | storeWrite (x : Ctx) (index : Nat) (img : StoreImg)
  /-- SPLICE_NOW (R53). -/
  | spliceNow (x : Ctx) (index : Nat)
  /-- CANCEL (R55). -/
  | cancel (x : Ctx) (index : Nat)
  /-- ALERT_ON (R142). -/
  | alertOn (x : Ctx) (index : Nat)
  /-- ALERT_RENEW (R149). -/
  | alertRenew (x : Ctx) (index : Nat)
  /-- ALERT_OFF (R150). -/
  | alertOff (x : Ctx) (index : Nat)
  /-- COUNTER_START (R164). -/
  | counterStart (x : Ctx) (index : Nat)
  /-- COUNTER_STOP (R164). -/
  | counterStop (x : Ctx) (index : Nat)
  /-- TAKE_LOG: its index is ignored (R64, R180). -/
  | takeLog (x : Ctx) (index : Nat)
  /-- CLEAR: table code, index and field area (R184). -/
  | clear (x : Ctx) (table index : Nat) (fields : List Byte)
  /-- RESTART: applies to the PART table (R183). -/
  | restart (x : Ctx) (index : Nat)
deriving DecidableEq, Repr

end Sys2Proof
end

