-- ==== Sys2Proof/Decode.lean ====
section
/-!
DEFINITION. The command that a word of the opcode table spells. The part takes no instruction words: no row of
spec/opcode_table.json gives a command any bits, so no word spells a command (log entry 16). The bytes that do come to
the part, cells and control records, are read by `Sys2Proof.Machine.judge`, `parseControl` and `runRecord`.
-/
namespace Sys2Proof

/-- The command that a word of `nbits` bits spells by the table: none. -/
def decodeTableWord (_nbits _w : Nat) : Option Instr := none

end Sys2Proof
end

