-- ==== Sys2Proof/Machine/State.lean ====
section
/-!
DEFINITION. The state of the SP-420, block by block, as plain data, and the part right after power-on reset.
Each record's docstring names the section whose field table it holds.
-/
namespace Sys2Proof.Machine

/-! ### Cells and input lanes (chapter 1) -/

inductive CellKind where
  | media | filler | control | response
deriving DecidableEq, Repr

/-- A valid cell by its named fields (section 1.1); `length` is the payload length, `payload` the 240 bytes. -/
structure Cell where
  tag : BitVec 12
  kind : CellKind
  continuity : BitVec 4
  unitStart : Bool
  splicePoint : Bool
  essential : Bool
  discontinuity : Bool
  rs : Option Stamp
  ps : Option Stamp
  length : Nat
  payload : List Byte
deriving DecidableEq, Repr

inductive LaneState where
  | up | down
deriving DecidableEq, Repr

/-- Table INLANE (section 1.2), with the last arrival. -/
structure InLane where
  state : LaneState
  timeout : Nat
  unrouted : Nat
  lastArrival : Option Ms
deriving DecidableEq, Repr

inductive RouteState where
  | free | active
deriving DecidableEq, Repr

/-- Table ROUTE (section 1.4), with the restart mark. -/
structure Route where
  state : RouteState
  inLane : InLaneId
  inTag : BitVec 12
  outLane : OutLaneId
  outTag : BitVec 12
  allotment : Nat
  service : Option SvcId
  guard : Fin 4
  continuity : BitVec 4
  overflow : Nat
  restartMark : Bool
deriving DecidableEq, Repr

/-! ### Services (chapter 2) -/

inductive SvcState where
  | off | network | cueing | inserting | returning | alert
deriving DecidableEq, Repr

inductive InsKind where
  | ad | loss | alert
deriving DecidableEq, Repr

/-- The configuration of a service context (section 2.1). -/
structure SvcConfig where
  unitInt : Nat
  unitFrac : Nat
  preroll : Nat
  exitWindow : Nat
  returnWindow : Nat
  seamTolerance : Nat
  leadLimit : Nat
  lateLimit : Nat
  lossClip : Option ClipId
  guard : Fin 4
deriving DecidableEq, Repr

/-- The last network RS and the station millisecond of its arrival (section 4.7). -/
structure ClockModel where
  rs : Stamp
  ms : Ms
deriving DecidableEq, Repr

/-- Why a return is being made (section 2.1): BREAK is `brk`. -/
structure ReturnFlags where
  truncated : Bool
  forced : Bool
  brk : Bool
deriving DecidableEq, Repr

def ReturnFlags.clear : ReturnFlags := ⟨false, false, false⟩

/-- Table SERVICE (section 2.1): the configuration, the dynamic state and the working fields. The reader position of
the field pair "slot, reader" is the place of the service's entry in that slot's readers list, so only the slot is
stored. `held` is the rebase unit's held mark (section 4.7). -/
structure Service where
  cfg : SvcConfig
  state : SvcState
  kind : Option InsKind
  event : Option EventId
  slot : Option SlotId
  owner : Option AlertId
  lastPs : Option Stamp
  clock : Option ClockModel
  held : Bool
  base : Stamp
  shedLevel : Nat
  shedPattern : Nat
  lateness : Int
  strayCount : Nat
  slipCount : Nat
  backstop : Option Ms
  straySeen : Bool
  slipped : Bool
  dark : Bool
  returnRef : Option Stamp
  exitPending : Bool
  returnPending : Bool
  returnFlags : ReturnFlags
  networkMark : Bool
  insertMark : Bool
  lossWaiting : Bool
deriving DecidableEq, Repr

/-! ### Events and the as-run log (chapter 3) -/

inductive EventState where
  | free | scheduled | cueing | active | completed | missed | cancelled | aborted
deriving DecidableEq, Repr

inductive Trigger where
  | time | cue
deriving DecidableEq, Repr

inductive Outcome where
  | completed | missed | cancelled | aborted
deriving DecidableEq, Repr

/-- The outcome flags of an event (section 3.1). -/
structure OutFlags where
  forcedExit : Bool := false
  forcedReturn : Bool := false
  truncated : Bool := false
  rehearsed : Bool := false
  storeFault : Bool := false
  sourceLost : Bool := false
  timelineBreak : Bool := false
  alert : Bool := false
  busyService : Bool := false
  noSlot : Bool := false
deriving DecidableEq, Repr

/-- Table EVENT (section 3.1). -/
structure Event where
  state : EventState
  service : SvcId
  trigger : Trigger
  s : Option Stamp
  duration : Option Nat
  clips : List ClipId
  force : Bool
  rehearse : Bool
  guard : Fin 4
  nominal : Nat
  outcome : Option Outcome
  flags : OutFlags
  slot : Option SlotId
  px : Option Stamp
  tr : Option Stamp
  retPs : Option Stamp
  seam : Option Int
  inserted : Nat
  shed : Nat
deriving DecidableEq, Repr

/-- One entry of the as-run log (section 3.10). -/
structure LogEntry where
  event : EventId
  service : SvcId
  outcome : Outcome
  flags : OutFlags
  s : Option Stamp
  px : Option Stamp
  tr : Option Stamp
  retPs : Option Stamp
  seam : Option Int
  inserted : Nat
  shed : Nat
  completion : Ms
deriving DecidableEq, Repr

/-! ### Windows, clips and feeder slots (chapter 5) -/

/-- Table WINDOW (section 5.1). -/
structure Window where
  base : Stamp
  length : Nat
  enabled : Bool
  guard : Fin 4
deriving DecidableEq, Repr

inductive ClipState where
  | free | loaded
deriving DecidableEq, Repr

/-- Table CLIP (section 5.2). -/
structure Clip where
  state : ClipState
  window : WindowId
  offset : Nat
  length : Nat
  c0 : Stamp
  cEnd : Stamp
  trim : Int
  guard : Fin 4
deriving DecidableEq, Repr

inductive Owner where
  | event (e : EventId)
  | alert (a : AlertId)
  | loss (v : SvcId)
deriving DecidableEq, Repr

inductive ClipSource where
  | list (l : List ClipId)
  | looped (c : ClipId)
deriving DecidableEq, Repr

inductive FetchEnd where
  | none | complete | stopped
deriving DecidableEq, Repr

inductive Seek where
  | none | join | slip
deriving DecidableEq, Repr

inductive SlotState where
  | free | filling | ready | feeding | draining
deriving DecidableEq, Repr

/-- A readers entry (section 5.3); its reader base is the service context's. -/
structure Reader where
  svc : SvcId
  pos : Seq
  seek : Seek
deriving DecidableEq, Repr

/-- A stamp of a ring cell after stages 1 to 3 of the rebase (R67, R72). -/
inductive RingStamp where
  | absent
  | stray
  | pos (f : Stamp)
deriving DecidableEq, Repr

/-- A ring cell: the stored cell, its pass number and its converted stamps (R72). -/
structure RingCell where
  cell : Cell
  pass : BitVec 32
  rs : RingStamp
  ps : RingStamp
deriving DecidableEq, Repr

/-- A place in an owner's material: list position, pass and cell index. -/
structure FetchPoint where
  listPos : Nat
  pass : BitVec 32
  cell : Nat
deriving DecidableEq, Repr

/-- Table SLOT (section 5.3). `ring` holds the cells from the tail on; its length is the ring occupancy. The state is
derived from the other fields (R91). -/
structure Slot where
  owner : Option Owner
  clips : ClipSource
  cursor : FetchPoint
  feedStart : Stamp
  frac : Nat
  unitInt : Nat
  unitFrac : Nat
  fetchEnd : FetchEnd
  written : Seq
  tail : Seq
  ring : List RingCell
  readers : List Reader
  exitMs : Option Ms
  faults : Nat
  inFlight : Option FetchPoint
deriving DecidableEq, Repr

/-- A claimant on the slot wait list (R93). -/
inductive Claimant where
  | loss (v : SvcId)
  | event (e : EventId)
deriving DecidableEq, Repr

/-! ### The store port (chapter 6) -/

inductive Phase where
  | idle | requesting | owner | releasing
deriving DecidableEq, Repr

/-- The current fetch (section 6.2). -/
structure Fetch where
  slot : SlotId
  point : FetchPoint
  addr : Stamp
  burst : Nat
  beat : Option Nat
  retry : Nat
deriving DecidableEq, Repr

/-- Table STORE (section 6.1) and the port's state (section 6.2). An OWNER port without a current
fetch has a burst left over from a RESTART to complete on the bus (R122). -/
structure Port where
  fast : Bool
  tenureLimit : Nat
  gap : Nat
  dutyLimit : Nat
  phase : Phase
  fetch : Option Fetch
  buffer : List Byte
  resume : Bool
  abandon : Bool
  tenure : Nat
  duty : Nat
  gapCount : Nat
deriving DecidableEq, Repr

/-! ### Output lanes (chapter 7) -/

structure FifoEntry where
  route : RouteId
  cell : Cell
deriving DecidableEq, Repr

/-- Table OUTLANE (section 7.1) with its working state, the number of positions of the present window already decided,
and the cell that the lane carries in the position last decided. -/
structure OutLane where
  capacity : Nat
  overflow : Nat
  windowK : Nat
  remaining : Tbl Nat 64
  held : Tbl Bool 64
  reserveUsed : Bool
  insRot : Option SvcId
  respRot : Option ChannelId
  fifo : List FifoEntry
  position : Nat
  out : Option Cell
deriving DecidableEq, Repr

/-! ### Alert channels (chapter 8) -/

inductive AlertState where
  | idle | active | stalled
deriving DecidableEq, Repr

/-- Table ALERT (section 8.1). -/
structure Alert where
  priority : Option (Fin 8)
  group : BitVec 64
  clip : ClipId
  leaseCode : Fin 8
  masked : Bool
  state : AlertState
  deadline : Option Ms
  slot : Option SlotId
  faults : Nat
  lapsed : Bool
  stallSeen : Bool
  blocked : Bool
  guard : Fin 4
deriving DecidableEq, Repr

/-! ### The cue unit (chapter 9) -/

inductive Direction where
  | input | output
deriving DecidableEq, Repr

inductive EdgeSelect where
  | none | rise | fall | both
deriving DecidableEq, Repr

inductive Level where
  | high | low
deriving DecidableEq, Repr

inductive Tally where
  | driven0 | driven1
  | serviceInserting (v : SvcId)
  | alertActive (a : AlertId)
  | anyAlert
deriving DecidableEq, Repr

/-- Table CUELINE (section 9.1) with the pending count. `reinit` is set from an OUT-to-IN write to the next tick (R158). -/
structure CueLine where
  direction : Direction
  edge : EdgeSelect
  debounce : Nat
  tally : Tally
  sampled : Level
  debounced : Level
  guard : Fin 4
  pending : Nat
  reinit : Bool
deriving DecidableEq, Repr

inductive ClockSource where
  | stationMs
  | splicePoints (v : SvcId)
  | unitStarts (v : SvcId)
  | edges (n : LineId)
  | expiry
deriving DecidableEq, Repr

inductive Gate where
  | always
  | lineHigh (n : LineId)
  | lineLow (n : LineId)
deriving DecidableEq, Repr

inductive CounterMode where
  | oneShot | periodic
deriving DecidableEq, Repr

inductive Target where
  | nothing
  | event (e : EventId)
  | alertOn (a : AlertId)
  | alertRenew (a : AlertId)
deriving DecidableEq, Repr

/-- Table COUNTER (section 9.3). -/
structure Counter where
  source : ClockSource
  gate : Gate
  reload : Nat
  count : Nat
  mode : CounterMode
  target : Target
  running : Bool
  guard : Fin 4
deriving DecidableEq, Repr

/-! ### Management (chapter 10) -/

inductive Table where
  | route | service | event | clip | window | slot | alert | counter | cueline | channel | inlane | outlane
  | store | log | part
deriving DecidableEq, Repr

/-- The result codes, in the order of section 10.5. -/
inductive Code where
  | ok | badTable | badIndex | badField | guarded | busy | duplicate | conflict | overCapacity | tooLate | tooFar
  | noTimebase | full | wrongState | masked | tooLong
deriving DecidableEq, Repr

/-- What a record returns in its response: code, entry count and data (R176). -/
structure Result where
  code : Code
  count : Nat
  data : List Byte
deriving DecidableEq, Repr

/-- Table CHANNEL (section 10.1). -/
structure Channel where
  enabled : Bool
  inLane : InLaneId
  inTag : BitVec 12
  respLane : OutLaneId
  respTag : BitVec 12
  bound : Fin 4
  cursor : Option (Table × Nat)
  queue : List Cell
  overrun : Nat
  continuity : BitVec 4
deriving DecidableEq, Repr

/-- A control cell taken in and not yet answered (R173), with the class fixed at its intake (R178). -/
structure Intake where
  ch : ChannelId
  cls : Fin 4
  cell : Cell
deriving DecidableEq, Repr

/-- MODEL'S OWN. A step of the part that has fallen due and has not been taken yet (log entry 2): a tick's check of a
block; `clock`, a clock event that the counter's gate has admitted and that is still to be taken from the count, the one
that makes it 0 or one behind that; `pulse`, a station millisecond that falls together with a change of the line that
gates the counter, and so has not reached the counter yet (R166). -/
inductive Due where
  | debounce (n : LineId)
  | laneLoss (lane : InLaneId)
  | backstop (v : SvcId)
  | hold (v : SvcId)
  | lease (a : AlertId)
  | window (lane : OutLaneId)
  | clock (c : CounterId)
  | pulse (c : CounterId)
deriving DecidableEq, Repr

/-- The state of the part. `windowStart` is the station millisecond at which the present rate window began
(section 4.3). `sched` holds the schedule list of each service. `intake` holds the intake FIFOs of the four channels
in the order in which their cells reached the management unit; a channel's own FIFO is its sub-list. The last four
fields are the model's own: `draws` counts the free values taken so far (log entry 42), `lastResult` is the result of the
last record executed (the response under construction carries it), `due` the steps that have fallen due, `pending` the
queue of commands. -/
structure State where
  now : Ms
  windowStart : Ms
  inLanes : Tbl InLane 4
  routes : Tbl Route 256
  services : Tbl Service 64
  events : Tbl Event 256
  sched : Tbl (List EventId) 64
  log : List LogEntry
  windows : Tbl Window 8
  clips : Tbl Clip 512
  slots : Tbl Slot 16
  waitList : List Claimant
  port : Port
  outLanes : Tbl OutLane 2
  alerts : Tbl Alert 8
  lines : Tbl CueLine 8
  counters : Tbl Counter 16
  channels : Tbl Channel 4
  intake : List Intake
  storeFaultSeen : Bool
  draws : Nat
  lastResult : Option Result
  due : List Due
  pending : List Instr
deriving DecidableEq, Repr

/-- No rule of the manual stops the part. -/
inductive Fault where
  /-- Raised by no meaning: every command of the table has an effect in every state. Safe. -/
  | halted
deriving DecidableEq, Repr

inductive Refusal where
  /-- Raised by an arm of `exec` whose command has no meaning yet; no arm raises it now. Safe. -/
  | notModelled (mnemonic : String)
deriving DecidableEq, Repr

/-! ### Values after power-on reset -/

/-- R3. -/
def InLane.reset : InLane := { state := .down, timeout := 100, unrouted := 0, lastArrival := none }

/-- R11. -/
def Route.reset : Route :=
  { state := .free, inLane := 0, inTag := 0, outLane := 0, outTag := 0, allotment := 0, service := none, guard := 3,
    continuity := 0, overflow := 0, restartMark := false }

def SvcConfig.reset : SvcConfig :=
  { unitInt := 400000, unitFrac := 0, preroll := 20000000, exitWindow := 5000000, returnWindow := 5000000,
    seamTolerance := 100000, leadLimit := 2000000, lateLimit := 2000000, lossClip := none, guard := 3 }

/-- R20. -/
def Service.reset : Service :=
  { cfg := .reset, state := .off, kind := none, event := none, slot := none, owner := none, lastPs := none,
    clock := none, held := false, base := 0, shedLevel := 0, shedPattern := 0, lateness := 0, strayCount := 0,
    slipCount := 0, backstop := none, straySeen := false, slipped := false, dark := false, returnRef := none,
    exitPending := false, returnPending := false, returnFlags := .clear, networkMark := false, insertMark := false,
    lossWaiting := false }

/-- R44: the values of a FREE event record. -/
def Event.reset : Event :=
  { state := .free, service := 0, trigger := .time, s := none, duration := none, clips := [0], force := false,
    rehearse := false, guard := 3, nominal := 0, outcome := none, flags := {}, slot := none, px := none, tr := none,
    retPs := none, seam := none, inserted := 0, shed := 0 }

/-- R84. -/
def Window.reset : Window := { base := 0, length := 1048576, enabled := false, guard := 3 }

/-- R87. -/
def Clip.reset : Clip :=
  { state := .free, window := 0, offset := 0, length := 1, c0 := 0, cEnd := 0, trim := 0, guard := 3 }

/-- R90: the values of a FREE slot. -/
def Slot.reset : Slot :=
  { owner := none, clips := .looped 0, cursor := ⟨0, 0, 0⟩, feedStart := 0, frac := 0, unitInt := 400000, unitFrac := 0,
    fetchEnd := .none, written := 0, tail := 0, ring := [], readers := [], exitMs := none, faults := 0,
    inFlight := none }

/-- R108, R109. -/
def Port.reset : Port :=
  { fast := false, tenureLimit := 4, gap := 2, dutyLimit := 32, phase := .idle, fetch := none, buffer := [],
    resume := false, abandon := false, tenure := 0, duty := 0, gapCount := 0 }

/-- R123. -/
def OutLane.reset : OutLane :=
  { capacity := 256, overflow := 0, windowK := 256, remaining := Vector.replicate 64 0,
    held := Vector.replicate 64 false, reserveUsed := false, insRot := none, respRot := none, fifo := [],
    position := 0, out := none }

/-- R139: channel n has priority n and the target group of service 0 alone. -/
def Alert.reset (n : Fin 8) : Alert :=
  { priority := some n, group := 1, clip := 0, leaseCode := 2, masked := true, state := .idle, deadline := none,
    slot := none, faults := 0, lapsed := false, stallSeen := false, blocked := false, guard := 3 }

/-- R157. -/
def CueLine.reset : CueLine :=
  { direction := .input, edge := .none, debounce := 10, tally := .driven1, sampled := .high, debounced := .high,
    guard := 3, pending := 0, reinit := false }

/-- R162. -/
def Counter.reset : Counter :=
  { source := .stationMs, gate := .always, reload := 1, count := 0, mode := .oneShot, target := .nothing,
    running := false, guard := 3 }

/-- R171, channels 1-3. -/
def Channel.reset : Channel :=
  { enabled := false, inLane := 0, inTag := 0, respLane := 0, respTag := 0, bound := 3, cursor := none, queue := [],
    overrun := 0, continuity := 0 }

/-- R171, channel 0: the strapped lane, tag 4080 plus the offset, answered on OL0 at 4088 plus the offset, 4094 for
offset 7. -/
def Channel.strapped (lane : InLaneId) (offset : Fin 8) : Channel :=
  { Channel.reset with
    enabled := true, bound := 0, inLane := lane, inTag := BitVec.ofNat 12 (4080 + offset.val), respLane := 0,
    respTag := BitVec.ofNat 12 (if offset.val = 7 then 4094 else 4088 + offset.val) }

/-- The part at the end of power-on reset, with the straps sampled then. -/
def State.powerOn (lane : InLaneId) (offset : Fin 8) : State :=
  { now := 0, windowStart := 0
    inLanes := Vector.replicate 4 .reset
    routes := Vector.replicate 256 .reset
    services := Vector.replicate 64 .reset
    events := Vector.replicate 256 .reset
    sched := Vector.replicate 64 []
    log := []
    windows := Vector.replicate 8 .reset
    clips := Vector.replicate 512 .reset
    slots := Vector.replicate 16 .reset
    waitList := []
    port := .reset
    outLanes := Vector.replicate 2 .reset
    alerts := Vector.ofFn Alert.reset
    lines := Vector.replicate 8 .reset
    counters := Vector.replicate 16 .reset
    channels := (Vector.replicate 4 .reset).set 0 (Channel.strapped lane offset)
    intake := []
    storeFaultSeen := false
    draws := 0
    lastResult := none
    due := []
    pending := [] }

/-- The part right after power-on reset with every strap pin low: lane NL0, offset 0 (log entry 1). -/
def State.reset : State := State.powerOn 0 0

end Sys2Proof.Machine
end

