-- ==== Sys2Proof/Machine/Ops.lean ====
section
/-!
DEFINITION. The shared operations: stamp and station-time arithmetic (sections 4.2 and 4.3), byte order (section 10.7),
and the one read and the one update of each table of the state.
-/
namespace Sys2Proof.Machine

/-! ### Stamps and station time -/

/-- Stamp `a` is at or after stamp `b` (section 4.2). -/
def atOrAfter (a b : Stamp) : Bool := decide ((a - b).toNat < 2 ^ 35)
/-- Stamp `a` is after stamp `b` (section 4.2). -/
def after (a b : Stamp) : Bool := atOrAfter a b && decide (a ≠ b)
/-- Stamp `a` is before stamp `b` (section 4.2). -/
def before (a b : Stamp) : Bool := after b a
/-- A difference of stamps read as signed (section 4.2). -/
def signed (x : Stamp) : Int := x.toInt
/-- A number of ticks as a stamp, modulo 2^36. -/
def ticks (n : Nat) : Stamp := BitVec.ofNat 36 n
/-- A signed number of ticks as a stamp, modulo 2^36. -/
def signedTicks (x : Int) : Stamp := BitVec.ofInt 36 x

/-- Deadline `d` has passed at station millisecond `now` (section 4.3). -/
def passed (d now : Ms) : Bool := decide ((now - d).toNat < 2 ^ 31)
def millis (n : Nat) : Ms := BitVec.ofNat 32 n
/-- A number of ticks in whole milliseconds, rounded up. -/
def ceilMs (n : Nat) : Nat := (n + 9999) / 10000
/-- The deadline `ceil(ticks / 10,000) + 1,000` milliseconds from `now` (R27, R35). -/
def backstopAt (now : Ms) (n : Nat) : Ms := now + millis (ceilMs n + 1000)

/-! ### Counts, guards and bytes -/

/-- A saturating 16-bit count one higher (section 4.5). -/
def sat16 (n : Nat) : Nat := min (n + 1) 65535
/-- A saturating 32-bit count one higher (R58). -/
def sat32 (n : Nat) : Nat := min (n + 1) 4294967295
/-- A value clamped to a range (section 4.5). -/
def clamp (lo hi n : Nat) : Nat := max lo (min n hi)
/-- The guard that a write of effective class `cls` stores (R179). -/
def storedGuard (cls : Fin 4) (written : Nat) : Fin 4 := max cls ⟨min written 3, by omega⟩
/-- A command of effective class `cls` may change an entry of guard `g` (R178). -/
def allowed (cls g : Fin 4) : Bool := decide (cls ≤ g)

/-- `n` in `w` bytes, most significant byte first (section 10.7). -/
def beBytes : Nat → Nat → List Byte
  | 0, _ => []
  | w + 1, n => BitVec.ofNat 8 (n / 256 ^ w) :: beBytes w n
/-- The number that bytes spell, most significant byte first (section 10.7). -/
def beNat (bs : List Byte) : Nat := bs.foldl (fun a b => a * 256 + b.toNat) 0
/-- The number in the `w` bytes from byte `at_` on. -/
def field (bs : List Byte) (at_ w : Nat) : Nat := beNat ((bs.drop at_).take w)
/-- The stamp in the five bytes from byte `at_` on: the upper four bits are ignored (section 10.7). -/
def stampAt (bs : List Byte) (at_ : Nat) : Stamp := BitVec.ofNat 36 (field bs at_ 5)
/-- Bytes followed by zero bytes up to a length of `n`. -/
def padTo (n : Nat) (bs : List Byte) : List Byte := bs ++ List.replicate (n - bs.length) 0

/-! ### The tables -/

namespace State

def inLane (s : State) (i : InLaneId) : InLane := s.inLanes.get i
def modInLane (s : State) (i : InLaneId) (f : InLane → InLane) : State :=
  { s with inLanes := s.inLanes.put i (f (s.inLane i)) }
def route (s : State) (i : RouteId) : Route := s.routes.get i
def modRoute (s : State) (i : RouteId) (f : Route → Route) : State :=
  { s with routes := s.routes.put i (f (s.route i)) }
def svc (s : State) (v : SvcId) : Service := s.services.get v
def modSvc (s : State) (v : SvcId) (f : Service → Service) : State :=
  { s with services := s.services.put v (f (s.svc v)) }
def event (s : State) (e : EventId) : Event := s.events.get e
def modEvent (s : State) (e : EventId) (f : Event → Event) : State :=
  { s with events := s.events.put e (f (s.event e)) }
def list (s : State) (v : SvcId) : List EventId := s.sched.get v
def setList (s : State) (v : SvcId) (l : List EventId) : State := { s with sched := s.sched.put v l }
def window (s : State) (w : WindowId) : Window := s.windows.get w
def setWindow (s : State) (w : WindowId) (x : Window) : State := { s with windows := s.windows.put w x }
def clip (s : State) (c : ClipId) : Clip := s.clips.get c
def setClip (s : State) (c : ClipId) (x : Clip) : State := { s with clips := s.clips.put c x }
def slot (s : State) (k : SlotId) : Slot := s.slots.get k
def modSlot (s : State) (k : SlotId) (f : Slot → Slot) : State :=
  { s with slots := s.slots.put k (f (s.slot k)) }
def outLane (s : State) (n : OutLaneId) : OutLane := s.outLanes.get n
def modOutLane (s : State) (n : OutLaneId) (f : OutLane → OutLane) : State :=
  { s with outLanes := s.outLanes.put n (f (s.outLane n)) }
def alert (s : State) (a : AlertId) : Alert := s.alerts.get a
def modAlert (s : State) (a : AlertId) (f : Alert → Alert) : State :=
  { s with alerts := s.alerts.put a (f (s.alert a)) }
def line (s : State) (n : LineId) : CueLine := s.lines.get n
def modLine (s : State) (n : LineId) (f : CueLine → CueLine) : State :=
  { s with lines := s.lines.put n (f (s.line n)) }
def counter (s : State) (c : CounterId) : Counter := s.counters.get c
def modCounter (s : State) (c : CounterId) (f : Counter → Counter) : State :=
  { s with counters := s.counters.put c (f (s.counter c)) }
def channel (s : State) (h : ChannelId) : Channel := s.channels.get h
def modChannel (s : State) (h : ChannelId) (f : Channel → Channel) : State :=
  { s with channels := s.channels.put h (f (s.channel h)) }
def modPort (s : State) (f : Port → Port) : State := { s with port := f s.port }

/-- The ACTIVE route that names the service (section 2, opening). -/
def routeOf (s : State) (v : SvcId) : Option RouteId :=
  s.routes.find? (fun _ r => decide (r.state = .active ∧ r.service = some v))
/-- The service has a route and the lane of that route is UP. -/
def laneUp (s : State) (v : SvcId) : Bool :=
  match s.routeOf v with
  | some r => decide ((s.inLane (s.route r).inLane).state = .up)
  | none => false
/-- The services, ascending, whose route names the input lane (R37, R39). -/
def servicesOn (s : State) (lane : InLaneId) : List SvcId :=
  let named := (s.routes.indices (fun _ r => decide (r.state = .active ∧ r.inLane = lane))).filterMap
    (fun r => (s.route r).service)
  (List.finRange 64).filter (fun v => named.contains v)
/-- The channel is live: ACTIVE or STALLED (section 8.1). -/
def live (s : State) (a : AlertId) : Bool := decide ((s.alert a).state ≠ .idle)

end State

/-! ### The order of log entries of one event of the part -/

/-- An entry put in its place by ascending event index. -/
def insertEntry (x : LogEntry) : List LogEntry → List LogEntry
  | [] => [x]
  | y :: l => if x.event.val ≤ y.event.val then x :: y :: l else y :: insertEntry x l
def sortEntries (l : List LogEntry) : List LogEntry := l.foldr insertEntry []
/-- One event of the part: the log entries it appends stand in ascending event index (R63). -/
def oneEvent (f : State → State) (s : State) : State :=
  let t := f s
  { t with log := t.log.take s.log.length ++ sortEntries (t.log.drop s.log.length) }

end Sys2Proof.Machine
end

