-- ==== Sys2Proof/Machine/Flags.lean ====
section
/-!
DEFINITION. Outcome flags and return flags: how they accumulate, and the order in which images carry them.
-/
namespace Sys2Proof.Machine

/-- Flags accumulate (R56, R57). -/
def OutFlags.union (a b : OutFlags) : OutFlags :=
  { forcedExit := a.forcedExit || b.forcedExit
    forcedReturn := a.forcedReturn || b.forcedReturn
    truncated := a.truncated || b.truncated
    rehearsed := a.rehearsed || b.rehearsed
    storeFault := a.storeFault || b.storeFault
    sourceLost := a.sourceLost || b.sourceLost
    timelineBreak := a.timelineBreak || b.timelineBreak
    alert := a.alert || b.alert
    busyService := a.busyService || b.busyService
    noSlot := a.noSlot || b.noSlot }

/-- A bit mask of flags, the first flag in bit 0 (section 10.7). -/
def maskOf (flags : List Bool) : Nat := flags.foldr (fun b m => 2 * m + b.toNat) 0

/-- The flags in the order of the EVENT field table (section 3.1). -/
def OutFlags.bits (f : OutFlags) : List Bool :=
  [f.forcedExit, f.forcedReturn, f.truncated, f.rehearsed, f.storeFault, f.sourceLost, f.timelineBreak, f.alert,
    f.busyService, f.noSlot]

def fTruncated : OutFlags := { truncated := true }
def fStoreFault : OutFlags := { storeFault := true }
def fSourceLost : OutFlags := { sourceLost := true }
def fTimelineBreak : OutFlags := { timelineBreak := true }
def fAlert : OutFlags := { alert := true }
def fBusy : OutFlags := { busyService := true }
def fNoSlot : OutFlags := { noSlot := true }
def fForcedExit : OutFlags := { forcedExit := true }
def fForcedReturn : OutFlags := { forcedReturn := true }
def fRehearsed : OutFlags := { rehearsed := true }

/-- TRUNCATED, if the condition holds. -/
def truncatedIf (b : Bool) : OutFlags := { truncated := b }
/-- NO_SLOT, if the condition holds. -/
def noSlotIf (b : Bool) : OutFlags := { noSlot := b }

/-- Flags noted in an event record. -/
def State.noteFlags (s : State) (e : EventId) (f : OutFlags) : State :=
  s.modEvent e (fun x => { x with flags := x.flags.union f })

/-- The terminal state that an outcome names. -/
def Outcome.state : Outcome → EventState
  | .completed => .completed
  | .missed => .missed
  | .cancelled => .cancelled
  | .aborted => .aborted

end Sys2Proof.Machine
end

