-- ==== Sys2Proof/Machine/Cells.lean ====
section
/-!
DEFINITION. The header of a fabric cell (section 1.1, formats of section 10.7): how 256 bytes are judged (R1), and the
cells that the part forms itself.
-/
namespace Sys2Proof.Machine

def kindOf : Nat → Option CellKind
  | 0 => some .media
  | 1 => some .filler
  | 2 => some .control
  | 3 => some .response
  | _ => none

def CellKind.code : CellKind → Nat
  | .media => 0
  | .filler => 1
  | .control => 2
  | .response => 3

/-- The cell that 256 bytes spell if it is valid, and none if it is invalid (R1). -/
def judge (bs : List Byte) : Option Cell :=
  match kindOf (field bs 2 1 / 32) with
  | none => none
  | some kind =>
    let flags := BitVec.ofNat 8 (field bs 2 1)
    let marks := BitVec.ofNat 8 (field bs 3 1)
    let tag := BitVec.ofNat 12 (field bs 0 2 / 16)
    let len := field bs 14 1
    if len ≤ Config.payloadBytes ∧ (kind = .filler ↔ tag.toNat = 4095) then
      some
        { tag := tag, kind := kind, continuity := BitVec.ofNat 4 (field bs 0 2)
          unitStart := flags.getLsbD 4, splicePoint := flags.getLsbD 3
          essential := flags.getLsbD 2, discontinuity := flags.getLsbD 1
          rs := if marks.getLsbD 7 then some (stampAt bs 4) else none
          ps := if marks.getLsbD 6 then some (stampAt bs 9) else none
          length := len, payload := bs.drop 16 }
    else none

/-- The five bytes of a header stamp; those of an absent stamp are free (log entry 13). -/
def stampBytes (from_ : Nat) : Option Stamp → List Byte
  | some x => beBytes 5 x.toNat
  | none => (List.range 5).map (fun i => Config.absentStampByte (from_ + i))

/-- The 256 bytes of a cell (section 10.7). -/
def Cell.bytes (c : Cell) : List Byte :=
  beBytes 2 (c.tag.toNat * 16 + c.continuity.toNat) ++
  beBytes 1 (c.kind.code * 32 + maskOf [false, c.discontinuity, c.essential, c.splicePoint, c.unitStart]) ++
  beBytes 1 (c.rs.isSome.toNat * 128 + c.ps.isSome.toNat * 64) ++
  stampBytes 4 c.rs ++ stampBytes 9 c.ps ++ beBytes 1 c.length ++ [0] ++ c.payload

/-- The cell is a splice point (R2). -/
def Cell.isSplice (c : Cell) : Bool := c.unitStart && c.splicePoint && c.ps.isSome

/-- The filler cell (R137). -/
def Cell.fillerCell : Cell :=
  { tag := 4095, kind := .filler, continuity := 0, unitStart := false, splicePoint := false, essential := false,
    discontinuity := false, rs := none, ps := none, length := 0, payload := List.replicate Config.payloadBytes 0 }

/-- A response cell with the given payload bytes (R176). DESIGN CHOICE (log entry 46): the bytes of its 240 beyond the
payload length are 0. -/
def Cell.responseCell (tag : BitVec 12) (continuity : BitVec 4) (data : List Byte) : Cell :=
  { tag := tag, kind := .response, continuity := continuity, unitStart := false, splicePoint := false,
    essential := false, discontinuity := false, rs := none, ps := none, length := data.length,
    payload := padTo Config.payloadBytes data }

end Sys2Proof.Machine
end

