-- ==== Sys2Proof/Machine/Rebase.lean ====
section
/-!
DEFINITION. The arithmetic of the rebase unit (chapter 4).
-/
namespace Sys2Proof.Machine

/-- Stage 1: the elapsed time of a stamp in its clip (R67). -/
def elapsed (c : Clip) (x : Stamp) : Int := signed (x - c.c0)
/-- An elapsed time too far before the origin makes the stamp stray (R67). -/
def isStray (e : Int) : Bool := decide (e < -16777216)
/-- The correction of stage 2: `e * trim / 2^24`, rounded to nearest, halves away from zero (R69). -/
def trimOf (e trim : Int) : Int :=
  let m : Int := (((2 * (e * trim).natAbs + 2 ^ 24) / 2 ^ 25 : Nat) : Int)
  if e * trim < 0 then -m else m
/-- The corrected elapsed time (R69). -/
def corrected (e trim : Int) : Int := e + trimOf e trim
/-- Stages 1 to 3 for one stamp of a cell of a pass with feed start `f` (R66 to R72). -/
def convert (c : Clip) (f : Stamp) : Option Stamp → RingStamp
  | none => .absent
  | some x =>
    if isStray (elapsed c x) then .stray else .pos (f + signedTicks (corrected (elapsed c x) c.trim))

/-- Feed start and fraction accumulator. -/
structure FeedPos where
  start : Stamp
  frac : Nat
deriving DecidableEq, Repr

/-- The trimmed span of a pass of the clip (R71). -/
def spanOf (c : Clip) : Int := corrected (signed (c.cEnd - c.c0)) c.trim
/-- The end of a pass: the next feed start and the accumulator (R71). -/
def passEnd (unitInt unitFrac : Nat) (p : FeedPos) (c : Clip) : FeedPos :=
  let sum := p.frac + unitFrac
  let carry := if 65536 ≤ sum then 1 else 0
  { start := p.start + signedTicks (spanOf c) + ticks (unitInt + carry)
    frac := if 65536 ≤ sum then sum - 65536 else sum }
/-- The feed total of a clip list (R73). -/
def feedTotal (unitInt unitFrac : Nat) (l : List Clip) : Stamp := (l.foldl (passEnd unitInt unitFrac) ⟨0, 0⟩).start

/-- Stage 4: the output stamp of a feed position for a reader base (R74). -/
def outStamp (base f : Stamp) : Stamp := base + f

/-- The free-run span of a clock model (R80). -/
def freeRun (m : ClockModel) (held : Bool) (now : Ms) : Nat :=
  if held then Config.holdSpan else (now - m.ms).toNat
/-- The projection of a service's clock model, if it has one (R80, R82). -/
def projection (x : Service) (now : Ms) : Option Stamp :=
  x.clock.map (fun m => m.rs + ticks (freeRun m x.held now * 10000))

/-- The clock model becomes absent, and its held mark clear (R81). -/
def Service.dropClock (x : Service) : Service := { x with clock := none, held := false }
/-- The clock model takes a network RS (R24, R81). -/
def Service.takeRs (x : Service) (rs : Stamp) (ms : Ms) : Service := { x with clock := some ⟨rs, ms⟩, held := false }

end Sys2Proof.Machine
end

