-- ==== Sys2Proof/Machine/Feeder.lean ====
section
/-!
DEFINITION. The feeder's slots, rings, readers and wait list (chapter 5).
-/
namespace Sys2Proof.Machine

/-! ### One slot -/

/-- The state of a slot follows from its other fields (R91). -/
def Slot.state (x : Slot) : SlotState :=
  match x.owner with
  | none => .free
  | some _ =>
    if x.fetchEnd ≠ .none then .draining
    else if x.readers ≠ [] then .feeding
    else if Config.prefillCells ≤ x.ring.length then .ready
    else .filling

/-- The slot wants a cell (R95). -/
def Slot.wants (x : Slot) : Bool :=
  x.owner.isSome && decide (x.fetchEnd = .none) && x.inFlight.isNone && decide (x.ring.length < Config.ringCells)

/-- The slot had finished: DRAINING with an empty ring (R33, R97). -/
def Slot.finished (x : Slot) : Bool := decide (x.state = .draining) && x.ring.isEmpty

/-- The clip under the slot's cursor (R95). -/
def Slot.clipUnder (x : Slot) : ClipId :=
  match x.clips with
  | .list l => l.getD x.cursor.listPos 0
  | .looped c => c

/-- The distance of a sequence number from the tail. -/
def Slot.off (x : Slot) (q : Seq) : Nat := (q - x.tail).toNat
/-- The ring cell of a sequence number, if it is held. -/
def Slot.cellAt (x : Slot) (q : Seq) : Option RingCell := x.ring[x.off q]?
/-- The readers entry of a service. -/
def Slot.readerOf (x : Slot) (v : SvcId) : Option Reader := x.readers.find? (fun r => decide (r.svc = v))
/-- The distance of the fastest reader from the tail (R99). -/
def Slot.fastOff (x : Slot) : Nat := x.readers.foldl (fun m r => max m (x.off r.pos)) 0
/-- The distance of the slowest reader from the tail (R100); 0 without readers. -/
def Slot.slowOff (x : Slot) : Nat :=
  match x.readers with
  | [] => 0
  | r :: l => l.foldl (fun m r => min m (x.off r.pos)) (x.off r.pos)

/-- The tail becomes the read position of the slowest reader; without readers it stays (R100). -/
def Slot.moveTail (x : Slot) : Slot :=
  { x with tail := x.tail + BitVec.ofNat 32 x.slowOff, ring := x.ring.drop x.slowOff }

/-- The writer needs room (R103). -/
def Slot.needsRoom (x : Slot) : Bool := decide (Config.ringCells ≤ x.ring.length) && decide (x.fetchEnd = .none)
/-- The test of R104: the writer needs room and the slowest of two or more readers lags by more than 24 cells. -/
def Slot.slipDue (x : Slot) : Bool :=
  x.needsRoom && decide (2 ≤ x.readers.length) && decide (Config.slipLag < x.fastOff - x.slowOff)
/-- The readers that slip: those at the slowest read position (R104). -/
def Slot.slipping (x : Slot) : List Reader := x.readers.filter (fun r => decide (x.off r.pos = x.slowOff))
/-- The readers list after a slip (R104). -/
def Slot.slipReaders (x : Slot) : List Reader :=
  x.readers.map (fun r =>
    if x.off r.pos = x.slowOff then
      { r with pos := x.tail + BitVec.ofNat 32 x.fastOff, seek := if r.seek = .join then .join else .slip }
    else r)

/-- A ring cell at which a seeking reader stops: a splice point whose PS is not stray (R68, R101). -/
def RingCell.joinable (c : RingCell) : Bool :=
  c.cell.isSplice && (match c.ps with | .pos _ => true | _ => false)

/-- The feed position of a ring cell's PS. -/
def RingCell.psFeed (c : RingCell) : Stamp :=
  match c.ps with
  | .pos f => f
  | _ => 0

/-- The ring cells from a reader's position on. -/
def Slot.ahead (x : Slot) (r : Reader) : List RingCell := x.ring.drop (x.off r.pos)
/-- How many ring cells a seeking reader passes (R101). -/
def Slot.passes (x : Slot) (r : Reader) : Nat := ((x.ahead r).takeWhile (fun c => !c.joinable)).length
/-- The cell at which a seeking reader stops, if it is written (R101). -/
def Slot.stopCell (x : Slot) (r : Reader) : Option RingCell := (x.ahead r)[x.passes r]?

/-- A reader after the cells in the ring have been sought through (R101). -/
def Slot.sought (x : Slot) (r : Reader) : Reader :=
  if r.seek = .none then r
  else
    { r with
      pos := r.pos + BitVec.ofNat 32 (x.passes r)
      seek := if (x.stopCell r).isSome then .none else r.seek }

/-- The reader base of a service at its join cell (R76). -/
def joinBase (v : Service) (f : Stamp) : Stamp :=
  match v.lastPs with
  | some p => p + ticks v.cfg.unitInt - f
  | none => 0

/-! ### A slot and its readers' services -/

/-- A JOIN reader that reaches its join cell takes its reader base there (R76, R101). -/
def takeBase (x : Slot) (s : State) (r : Reader) : State :=
  if r.seek = .join then
    match x.stopCell r with
    | some c => s.modSvc r.svc (fun v => { v with base := joinBase v c.psFeed })
    | none => s
  else s

/-- Every seeking reader of the slot passes the ring cells written so far (R101). -/
def seekReaders (k : SlotId) (s : State) : State :=
  let x := s.slot k
  (x.readers.foldl (takeBase x) s).modSlot k (fun y => { y with readers := y.readers.map x.sought })

/-- The count, flag and mark of a counted slip; a reader seeking JOIN is not counted (R104). -/
def noteSlip (s : State) (r : Reader) : State :=
  if r.seek = .join then s
  else s.modSvc r.svc (fun v => { v with slipCount := sat16 v.slipCount, slipped := true, insertMark := true })

/-- The slip of R104, if it is due. -/
def slipReaders (k : SlotId) (s : State) : State :=
  let x := s.slot k
  if x.slipDue then (x.slipping.foldl noteSlip s).modSlot k (fun y => { y with readers := x.slipReaders }.moveTail)
  else s

/-- What follows a change of a slot's ring or readers: seeking readers pass written cells, the tail follows the slowest
reader, and a reader that holds up the writer slips (R100, R101, R104). One slip always makes room, since every reader
at the tail moves. -/
def settleRing (k : SlotId) (s : State) : State :=
  let moved := fun s => (seekReaders k s).modSlot k Slot.moveTail
  moved (slipReaders k (moved s))

/-- A service attached as a reader: an entry at the end of the readers list, and the pacing fields 0 (R99, R136). -/
def attach (k : SlotId) (v : SvcId) (pos : Seq) (seek : Seek) (s : State) : State :=
  (s.modSlot k (fun x => { x with readers := x.readers ++ [⟨v, pos, seek⟩] })).modSvc v
    (fun y => { y with slot := some k, shedLevel := 0, shedPattern := 0, lateness := 0 })

/-- A reader that joins a running ring: at the fastest reader's position, or at the tail of a ring without readers
(R99, R147). -/
def attachJoin (k : SlotId) (v : SvcId) (s : State) : State :=
  let x := s.slot k
  settleRing k (attach k v (x.tail + BitVec.ofNat 32 x.fastOff) .join s)

/-- A service detached from the ring it reads, if any; the tail is recomputed (R102). -/
def detach (v : SvcId) (s : State) : State :=
  match (s.svc v).slot with
  | none => s
  | some k =>
    settleRing k
      ((s.modSlot k (fun x => { x with readers := x.readers.filter (fun r => decide (r.svc ≠ v)) })).modSvc v
        (fun y => { y with slot := none }))

/-! ### Claims (R92, R93) -/

/-- The services of a target group, ascending. -/
def groupList (g : BitVec 64) : List SvcId := (List.finRange 64).filter (fun v => g.getLsbD v.val)

/-- The service whose unit period an owner's slot takes (R70). -/
def unitService (s : State) : Owner → SvcId
  | .event e => (s.event e).service
  | .loss v => v
  | .alert a => (groupList (s.alert a).group).headD 0

/-- The clip source an owner's slot takes (R92). -/
def sourceOf (s : State) : Owner → ClipSource
  | .event e => .list (s.event e).clips
  | .loss v => .looped ((s.svc v).cfg.lossClip.getD 0)
  | .alert a => .looped (s.alert a).clip

/-- The slot as a claim sets it up for its owner (R70, R92). -/
def claimedSlot (s : State) (o : Owner) : Slot :=
  let cfg := (s.svc (unitService s o)).cfg
  { Slot.reset with owner := some o, clips := sourceOf s o, unitInt := cfg.unitInt, unitFrac := cfg.unitFrac }

/-- A slot claimed for an owner; an ad event's slot field names it from then on (R92). -/
def claimSlot (k : SlotId) (o : Owner) (s : State) : State :=
  let t := s.modSlot k (fun _ => claimedSlot s o)
  match o with
  | .event e => t.modEvent e (fun x => { x with slot := some k })
  | _ => t

/-- The lowest-numbered FREE slot (R92). -/
def freeSlot (s : State) : Option SlotId := s.slots.find? (fun _ x => x.owner.isNone)

/-- A loss fill joins after the last loss fill entry (R93). -/
def joinLoss (v : SvcId) : List Claimant → List Claimant
  | .loss w :: l => .loss w :: joinLoss v l
  | l => .loss v :: l

/-- A claimant leaves the wait list (R93). -/
def State.leaveWait (s : State) (c : Claimant) : State :=
  { s with waitList := s.waitList.filter (fun x => decide (x ≠ c)) }

/-- The loss clip of a service is present and LOADED (R38, R94). -/
def lossClipUsable (s : State) (v : SvcId) : Bool :=
  match (s.svc v).cfg.lossClip with
  | some c => decide ((s.clip c).state = .loaded)
  | none => false

/-- Loss fill with a slot granted: the service goes INSERTING with kind LOSS and its insert mark set (R38). -/
def grantLoss (k : SlotId) (v : SvcId) (s : State) : State :=
  (claimSlot k (.loss v) s).modSvc v
    (fun x => { x with state := .inserting, kind := some .loss, insertMark := true, lossWaiting := false })

/-- A freed slot handed to the head of the wait list; a loss fill whose clip is gone leaves without a claim, dark, and
the slot passes to the next head (R94). -/
def handOver (k : SlotId) : List Claimant → State → State
  | [], s => { s with waitList := [] }
  | .event e :: l, s => claimSlot k (.event e) { s with waitList := l }
  | .loss v :: l, s =>
    if lossClipUsable s v then grantLoss k v { s with waitList := l }
    else handOver k l (s.modSvc v (fun x => { x with dark := true, lossWaiting := false }))

/-- An answer to the fetch has been taken: its next burst, beat or retry may not have been issued yet (R115, R116). -/
def Fetch.answered (f : Fetch) : Bool := decide (f.burst ≠ 0) || f.beat.isSome || decide (f.retry ≠ 0)

/-- The current fetch dropped, with its buffer and its marks. -/
def Port.dropped (p : Port) : Port := { p with fetch := none, buffer := [], resume := false, abandon := false }

/-- The port's side of a slot that is released or reclaimed (R120): a fetch that waits with its resume mark is dropped
without any transfer; so is one between two transfers, of which no further one is issued; one whose burst or beat is
under way is marked abandoned. Whether a transfer is under way after an answer is a free value (log entry 42). -/
def slotGone (k : SlotId) (s : State) : State :=
  match s.port.fetch with
  | none => s
  | some f =>
    if f.slot ≠ k ∨ s.port.abandon then s
    else if s.port.resume then s.modPort Port.dropped
    else if f.answered then
      { s.modPort (fun p => if Config.burstIssued s.draws then { p with abandon := true } else p.dropped) with
        draws := s.draws + 1 }
    else s.modPort (fun p => { p with abandon := true })

/-- Every reader of the slot is detached (R94, R106). -/
def detachAll (k : SlotId) (s : State) : State :=
  (s.slot k).readers.foldl (fun t r => t.modSvc r.svc (fun v => { v with slot := none })) s

/-- The slot emptied, with its readers detached and its fetch abandoned (R94 steps 1-4, R106 steps 2-3). -/
def emptySlot (k : SlotId) (s : State) : State :=
  slotGone k ((detachAll k s).modSlot k (fun _ => Slot.reset))

/-- The release of a slot: it is emptied and goes to the head of the wait list (R94). -/
def releaseSlot (k : SlotId) (s : State) : State :=
  let t := emptySlot k s
  handOver k t.waitList t

/-- The slot that a loss fill of the service holds. -/
def lossSlot (s : State) (v : SvcId) : Option SlotId := s.slots.find? (fun _ x => decide (x.owner = some (.loss v)))

/-- The fetching of a slot is stopped, unless it has ended already (R97). -/
def stopFetch (k : SlotId) (s : State) : State :=
  s.modSlot k (fun x => if x.fetchEnd = .none then { x with fetchEnd := .stopped } else x)

/-- The cursor moves on by one cell; past the clip's last cell the pass ends (R71, R96 step 4). -/
def Slot.advance (c : Clip) (x : Slot) : Slot :=
  if x.cursor.cell + 1 < c.length then { x with cursor := { x.cursor with cell := x.cursor.cell + 1 } }
  else
    let p := passEnd x.unitInt x.unitFrac ⟨x.feedStart, x.frac⟩ c
    let y := { x with feedStart := p.start, frac := p.frac }
    match x.clips with
    | .looped _ => { y with cursor := ⟨0, x.cursor.pass + 1, 0⟩ }
    | .list l =>
      if x.cursor.listPos + 1 < l.length then { y with cursor := ⟨x.cursor.listPos + 1, x.cursor.pass + 1, 0⟩ }
      else { y with cursor := { x.cursor with cell := x.cursor.cell + 1 }, fetchEnd := .complete }

end Sys2Proof.Machine
end

