-- ==== Sys2Proof/Machine/Fifo.lean ====
section
/-!
DEFINITION. The network FIFO of an output lane (R19, R128) and the purge of a route's queued cells (R15, R16).
-/
namespace Sys2Proof.Machine

/-- The FIFO of the lane has room (R128). -/
def fifoRoom (s : State) (n : OutLaneId) : Bool := decide ((s.outLane n).fifo.length < Config.fifoCells)

/-- A network cell offered to the FIFO of its route's out lane: appended with its route, or discarded with both overflow
counts raised (R19, R128). -/
def offer (r : RouteId) (c : Cell) (s : State) : State :=
  let n := (s.route r).outLane
  if fifoRoom s n then s.modOutLane n (fun o => { o with fifo := o.fifo ++ [⟨r, c⟩] })
  else (s.modRoute r (fun x => { x with overflow := sat16 x.overflow })).modOutLane n
    (fun o => { o with overflow := sat16 o.overflow })

/-- A route's queued cells removed from the FIFO of a lane; the cells behind them close up (R15, R16). -/
def purge (r : RouteId) (n : OutLaneId) (s : State) : State :=
  s.modOutLane n (fun o => { o with fifo := o.fifo.filter (fun x => decide (x.route ≠ r)) })

/-- A cell of the route remains in the FIFO of its out lane (R23, R130). -/
def queued (s : State) (r : RouteId) : Bool :=
  (s.outLane (s.route r).outLane).fifo.any (fun x => decide (x.route = r))

end Sys2Proof.Machine
end

