-- ==== Sys2Proof/Machine/Schedule.lean ====
section
/-!
DEFINITION. The schedule unit: closing events, the schedule lists, due and missed, the cull (chapter 3).
-/
namespace Sys2Proof.Machine

/-- SCHEDULED, CUEING and ACTIVE are the live states (section 3.1). -/
def Event.live (x : Event) : Bool :=
  match x.state with
  | .scheduled => true
  | .cueing => true
  | .active => true
  | _ => false

/-- The terminal states (section 3.1). -/
def Event.terminal (x : Event) : Bool := !x.live && decide (x.state ≠ .free)

/-- The log entry of an event closed with outcome `o` at station millisecond `now`: S only for a TIME event (R62). -/
def entryOf (e : EventId) (x : Event) (o : Outcome) (now : Ms) : LogEntry :=
  { event := e, service := x.service, outcome := o, flags := x.flags
    s := if x.trigger = .time then x.s else none
    px := x.px, tr := x.tr, retPs := x.retPs, seam := x.seam, inserted := x.inserted, shed := x.shed
    completion := now }

/-- A live event closed: its terminal state, its outcome, its flags, no slot, and its log entry (R57, R62). -/
def closeEvent (e : EventId) (o : Outcome) (f : OutFlags) (s : State) : State :=
  if (s.event e).live then
    let x := { s.event e with state := o.state, outcome := some o, flags := (s.event e).flags.union f, slot := none }
    { s.modEvent e (fun _ => x) with log := s.log ++ [entryOf e x o s.now] }
  else s

/-- An event leaves its service's schedule list (section 3.3). -/
def leaveList (e : EventId) (s : State) : State :=
  let v := (s.event e).service
  s.setList v ((s.list v).filter (fun x => decide (x ≠ e)))

/-- A SCHEDULED event leaves its list and is closed (R50, R52, R53, R55, R60). -/
def closeScheduled (e : EventId) (o : Outcome) (f : OutFlags) (s : State) : State :=
  closeEvent e o f (leaveList e s)

/-- Some clip that the event names is FREE (R52). -/
def clipsGone (s : State) (e : EventId) : Bool :=
  (s.event e).clips.any (fun c => decide ((s.clip c).state = .free))

/-- The flags of an event missed by the state of its service (R50, R53). -/
def busyFlags (x : Service) : OutFlags :=
  match x.state with
  | .cueing => fBusy
  | .inserting => fBusy
  | .returning => if x.kind = some .alert then fAlert else fBusy
  | .alert => fAlert
  | _ => {}

/-- A SCHEDULED event goes CUEING and becomes its service's current event; its slot is claimed, or it joins the wait
list at the tail (R25, R49, R92, R93). -/
def cue (v : SvcId) (e : EventId) (s : State) : State :=
  let t := ((leaveList e s).modEvent e (fun x => { x with state := .cueing })).modSvc v
    (fun x => { x with state := .cueing, event := some e, exitPending := false })
  match freeSlot t with
  | some k => claimSlot k (.event e) t
  | none => { t with waitList := t.waitList ++ [.event e] }

/-- `p` lies in the due window of a splice time (R49). -/
def inDueWindow (cfg : SvcConfig) (splice p : Stamp) : Bool :=
  atOrAfter p (splice - ticks cfg.preroll) && before p (splice + ticks cfg.exitWindow)
/-- `p` is at or after the end of the exit window (R28, R50). -/
def windowOver (cfg : SvcConfig) (splice p : Stamp) : Bool := atOrAfter p (splice + ticks cfg.exitWindow)

/-- The heads of a schedule list judged against a network PS: each head that leaves brings up the next (R49-R52). -/
def judgeHeads (v : SvcId) (p : Stamp) : List EventId → State → State
  | [], s => s
  | e :: l, s =>
    match (s.event e).s with
    | none => s
    | some splice =>
      if inDueWindow (s.svc v).cfg splice p then
        if clipsGone s e then judgeHeads v p l (closeScheduled e .missed fStoreFault s)
        else if (s.svc v).state = .network then
          if s.laneUp v then judgeHeads v p l (cue v e s)
          else judgeHeads v p l (closeScheduled e .missed fSourceLost s)
        else s
      else if windowOver (s.svc v).cfg splice p then
        judgeHeads v p l (closeScheduled e .missed (busyFlags (s.svc v)) s)
      else s

/-- The event's splice time lies in (new PS, new PS + 2^34] (R60). -/
def keptByCull (s : State) (p : Stamp) (e : EventId) : Bool :=
  match (s.event e).s with
  | some splice => decide (1 ≤ (splice - p).toNat ∧ (splice - p).toNat ≤ 2 ^ 34)
  | none => false

/-- The cull of a service's list at the new PS after a timeline break (R60). -/
def cull (v : SvcId) (p : Stamp) (s : State) : State :=
  ((s.list v).filter (fun e => !keptByCull s p e)).foldl (fun t e => closeScheduled e .missed fTimelineBreak t) s

/-- A network PS given to the schedule unit; `fresh` when it is the first since the timebase became absent
(R36, R49-R51, R60). -/
def givePs (v : SvcId) (fresh : Bool) (p : Stamp) (s : State) : State :=
  let t := if fresh then cull v p s else s
  judgeHeads v p (t.list v) t

end Sys2Proof.Machine
end

