-- ==== Sys2Proof/Machine/ServiceEngine.lean ====
section
/-!
DEFINITION. The service engine: every switch between network and inserted material (chapter 2).
-/
namespace Sys2Proof.Machine

/-! ### Leaving a state -/

/-- The service goes NETWORK and gives up every working value of its former activity (R30, R33, R35, R37). -/
def Service.toNetwork (x : Service) : Service :=
  { x with state := .network, kind := none, event := none, backstop := none, returnRef := none, exitPending := false,
           returnPending := false, returnFlags := .clear }

def goNetwork (v : SvcId) (s : State) : State := s.modSvc v Service.toNetwork

/-- The claim of a CUEING event given up: its slot `k` is released, or its wait-list entry removed (R30, R93, R94). -/
def dropClaim (e : EventId) (k : Option SlotId) (s : State) : State :=
  match k with
  | some k => releaseSlot k s
  | none => s.leaveWait (.event e)

/-- A CUEING event is closed without an exit: its service goes NETWORK and its claim is given up (R28, R30, R36, R37). -/
def endCueing (e : EventId) (o : Outcome) (f : OutFlags) (s : State) : State :=
  dropClaim e (s.event e).slot (goNetwork (s.event e).service (closeEvent e o f s))

/-- A CUEING service leaves CUEING without an exit (R28, R30, R36, R37). -/
def leaveCueing (v : SvcId) (o : Outcome) (f : OutFlags) (s : State) : State :=
  match (s.svc v).event with
  | some e => endCueing e o f s
  | none => goNetwork v s

/-- The deadline that a service entering a return of kind LOSS or ALERT is given (R35). -/
def returnBackstop (s : State) (v : SvcId) : Ms := backstopAt s.now (s.svc v).cfg.returnWindow

/-- The slot of the service's current event. -/
def adSlot (s : State) (v : SvcId) : Option SlotId := (s.svc v).event.bind (fun e => (s.event e).slot)

def onSlot (k : Option SlotId) (f : SlotId → State → State) (s : State) : State :=
  match k with
  | some k => f k s
  | none => s

/-- The pending outcome of an ACTIVE event changed, and flags noted in it (R56). -/
def reportActive (e : EventId) (o : Option Outcome) (f : OutFlags) (s : State) : State :=
  s.modEvent e (fun x => { x with outcome := o.or x.outcome, flags := x.flags.union f })

/-- TRUNCATED noted in the return flags; an INSERTING service goes RETURNING, its return reference still to be set
(R32). -/
def Service.cutShort (x : Service) : Service :=
  let y := { x with returnFlags := { x.returnFlags with truncated := true } }
  if x.state = .inserting then { y with state := .returning, returnRef := none } else y

/-- The insertion of an ACTIVE event ended early: the report to the event, the return, and the stop of the fetching
(R32). -/
def earlyEnd (e : EventId) (o : Option Outcome) (f : OutFlags) (s : State) : State :=
  onSlot (s.event e).slot stopFetch ((reportActive e o f s).modSvc (s.event e).service Service.cutShort)

/-! ### Loss fill (R38) -/

/-- Loss fill of a NETWORK service whose lane is DOWN (R38). -/
def lossFill (v : SvcId) (s : State) : State :=
  if lossClipUsable s v then
    match freeSlot s with
    | some k => grantLoss k v s
    | none =>
      { s.modSvc v (fun x => { x with lossWaiting := true, dark := true }) with waitList := joinLoss v s.waitList }
  else s.modSvc v (fun x => { x with dark := true })

/-- The loss slot of a service given up: released, whether or not the service reads it yet (R33, R35, R40). -/
def dropLossSlot (v : SvcId) (s : State) : State := onSlot (lossSlot s v) releaseSlot s

/-! ### The exit (R26-R29) -/

/-- The insertion length D of the event in its slot (R27, R73). -/
def insertionLength (s : State) (e : EventId) (k : Option SlotId) : Nat :=
  match (s.event e).duration with
  | some d => d
  | none =>
    match k with
    | some k => (feedTotal (s.slot k).unitInt (s.slot k).unitFrac ((s.event e).clips.map s.clip)).toNat
    | none => 0

/-- P_x and T_r recorded in the event (R27, R29, R78). -/
def recordExit (e : EventId) (px : Stamp) (d : Nat) (forced : Bool) (s : State) : State :=
  s.modEvent e (fun x =>
    { x with px := some px, tr := some (px + ticks d), flags := x.flags.union { forcedExit := forced } })

/-- The exit of a rehearsal: the event completes, the slot is released and the service stays with the network (R29). -/
def rehearsalExit (v : SvcId) (e : EventId) (s : State) : State :=
  let k := (s.event e).slot
  onSlot k releaseSlot (goNetwork v (closeEvent e .completed fRehearsed s))

/-- The exit of a break: backstop, reader at the ring's first cell with base P_x, INSERTING with kind AD, event ACTIVE
with pending outcome COMPLETED (R27, R28, R75, R99). -/
def breakExit (v : SvcId) (e : EventId) (px : Stamp) (d : Nat) (forced : Bool) (s : State) : State :=
  let t := s.modSvc v (fun x =>
    { x with
      backstop := some (backstopAt s.now (d + x.cfg.returnWindow)), base := px, state := .inserting,
      kind := some .ad, exitPending := false, insertMark := x.insertMark || forced })
  let t := t.modEvent e (fun x => { x with state := .active, outcome := some .completed })
  onSlot (s.event e).slot
    (fun k t => (attach k v (t.slot k).tail .none t).modSlot k (fun x => { x with exitMs := some s.now })) t

/-- The exit of the current event at position P_x (R27-R29). -/
def takeExit (v : SvcId) (e : EventId) (px : Stamp) (forced : Bool) (s : State) : State :=
  let d := insertionLength s e (s.event e).slot
  let t := recordExit e px d forced s
  if (s.event e).rehearse then rehearsalExit v e t else breakExit v e px d forced t

/-- The event holds a slot whose ring holds at least 8 cells (R26). -/
def prefilled (s : State) (e : EventId) : Bool :=
  match (s.event e).slot with
  | some k => decide (Config.prefillCells ≤ (s.slot k).ring.length)
  | none => false

/-- A splice time not yet set becomes the cell's PS (R25, R53). -/
def setSplice (e : EventId) (p : Option Stamp) (s : State) : State :=
  s.modEvent e (fun x => { x with s := x.s.or p })

/-- The cell is a splice point with a PS at or after the given stamp. -/
def spliceFrom (c : Cell) (ref : Stamp) : Bool :=
  c.isSplice && (match c.ps with | some p => atOrAfter p ref | none => false)

/-- The exit hunt of a CUEING service on one network cell (R26, R28). -/
def cueingStep (v : SvcId) (c : Cell) (s : State) : State :=
  match (s.svc v).event with
  | none => s
  | some e =>
    let s := setSplice e c.ps s
    let cfg := (s.svc v).cfg
    match (s.event e).s with
    | none => s
    | some splice =>
      if (s.svc v).exitPending then takeExit v e (splice + ticks cfg.exitWindow) true s
      else if spliceFrom c splice && prefilled s e then takeExit v e (c.ps.getD 0) false s
      else
        let noSlot := noSlotIf (s.event e).slot.isNone
        let s := if spliceFrom c splice then s.noteFlags e noSlot else s
        match c.ps with
        | none => s
        | some p =>
          if windowOver cfg splice p then
            if (s.event e).force && prefilled s e then s.modSvc v (fun x => { x with exitPending := true })
            else leaveCueing v .missed noSlot s
          else s

/-! ### The return (R31-R36) -/

/-- The size of the seam error exceeds the tolerance. -/
def seamOver (seam : Option Int) (tol : Nat) : Bool :=
  match seam with
  | some d => decide ((tol : Int) < (d.natAbs : Int))
  | none => false

/-- The seam error of a return PS against the return target (R79). -/
def seamOf (ret tr : Option Stamp) : Option Int :=
  match ret, tr with
  | some p, some t => some (signed (p - t))
  | _, _ => none

/-- The slot had finished at the switch (R33); a slot that is gone had not. -/
def slotDone (s : State) (k : Option SlotId) : Bool :=
  match k with
  | some k => (s.slot k).finished
  | none => false

def Service.setNetworkMark (b : Bool) (x : Service) : Service := { x with networkMark := x.networkMark || b }

/-- The switch back of a break (R33 for kind AD): return PS and seam error, the slot's release, the network mark and the
close of the event. -/
def adSwitchBack (v : SvcId) (e : EventId) (s : State) : State :=
  let x := s.svc v
  let ev := s.event e
  let done := slotDone s ev.slot
  let seam := seamOf x.lastPs ev.tr
  let mark := seamOver seam x.cfg.seamTolerance || x.returnFlags.truncated || x.returnFlags.forced ||
    x.returnFlags.brk || !done
  let t := s.modEvent e (fun y => { y with retPs := x.lastPs, seam := seam })
  let t := closeEvent e (ev.outcome.getD .completed) (truncatedIf (!done)) (onSlot ev.slot releaseSlot t)
  t.modSvc v (fun y => y.toNetwork.setNetworkMark mark)

/-- The switch back at the return point (R33). The service's last network PS is the cell's PS, or the one before it on a
cell without a PS (R24, R34). -/
def switchBack (v : SvcId) (s : State) : State :=
  match (s.svc v).kind, (s.svc v).event with
  | some .ad, some e => adSwitchBack v e s
  | some .loss, _ => (dropLossSlot v s).modSvc v (fun y => y.toNetwork.setNetworkMark true)
  | _, _ => s.modSvc v (fun y => y.toNetwork.setNetworkMark true)

/-- Flags noted in the current event of a break. -/
def noteCurrent (v : SvcId) (f : OutFlags) (s : State) : State :=
  match (s.svc v).kind, (s.svc v).event with
  | some .ad, some e => s.noteFlags e f
  | _, _ => s

/-- FORCED noted, return pending set, FORCED_RETURN in the event of a break (R34, R35). -/
def forceReturn (v : SvcId) (s : State) : State :=
  (noteCurrent v fForcedReturn s).modSvc v (fun x =>
    { x with state := .returning, returnPending := true, returnFlags := { x.returnFlags with forced := true } })

/-- A RETURNING service on one network cell (R33, R34). -/
def returningStep (v : SvcId) (c : Cell) (s : State) : State :=
  let s := s.modSvc v (fun x => { x with returnRef := x.returnRef.or c.ps })
  let x := s.svc v
  if x.returnPending then switchBack v s
  else
    match x.returnRef, c.ps with
    | some ref, some p =>
      if spliceFrom c ref then switchBack v s
      else if atOrAfter p (ref + ticks x.cfg.returnWindow) then forceReturn v s
      else s
    | _, _ => s

/-- An INSERTING service on one network cell: at the return target a break goes RETURNING, and the same cell is judged
as its return point (R31). -/
def insertingStep (v : SvcId) (c : Cell) (s : State) : State :=
  match (s.svc v).kind, (s.svc v).event, c.ps with
  | some .ad, some e, some p =>
    match (s.event e).tr with
    | some tr =>
      if atOrAfter p tr then
        returningStep v c
          (onSlot (s.event e).slot stopFetch
            (s.modSvc v (fun x => { x with state := .returning, returnRef := some tr })))
      else s
    | none => s
  | _, _, _ => s

/-- The return given up at the backstop (R35). -/
def giveUp (v : SvcId) (s : State) : State :=
  let t := match (s.svc v).kind, (s.svc v).event with
    | some .ad, some e =>
      let ev := s.event e
      let done := slotDone s ev.slot
      closeEvent e (ev.outcome.getD .completed) (fSourceLost.union (truncatedIf (!done))) (onSlot ev.slot releaseSlot s)
    | some .loss, _ => dropLossSlot v s
    | _, _ => s
  let t := goNetwork v t
  if t.laneUp v then t.modSvc v (Service.setNetworkMark true) else lossFill v t

/-- A passed backstop deadline of an INSERTING or RETURNING service (R35). -/
def backstopStep (v : SvcId) (s : State) : State :=
  let x := s.svc v
  if x.state = .inserting ∨ x.state = .returning then
    if s.laneUp v && !x.returnPending then
      let k := if x.state = .inserting ∧ x.kind = some .ad then adSlot s v else none
      (onSlot k stopFetch (forceReturn v s)).modSvc v (fun y => { y with backstop := some (returnBackstop s v) })
    else giveUp v s
  else s

/-! ### One network cell (R23, R24, R36) -/

/-- A network timeline break, by the service's state (R36). -/
def breakStep (v : SvcId) (s : State) : State :=
  let t := s.modSvc v (fun x => { x.dropClock with lastPs := none })
  match (s.svc v).state, (s.svc v).kind with
  | .cueing, _ => leaveCueing v .missed fTimelineBreak t
  | .inserting, some .ad =>
    match (s.svc v).event with
    | some e => earlyEnd e none (fTimelineBreak.union fTruncated) t
    | none => t
  | .returning, _ =>
    (noteCurrent v (fTimelineBreak.union fTruncated) t).modSvc v (fun x =>
      { x with returnRef := none, returnFlags := { x.returnFlags with brk := true } })
  | _, _ => t

/-- The stamps of a network cell recorded (R24). -/
def Service.track (x : Service) (c : Cell) (ms : Ms) : Service :=
  let y := { x with lastPs := c.ps.or x.lastPs }
  match c.rs with
  | some r => y.takeRs r ms
  | none => y

/-- Step 4 of R23: the switching decisions of the service's state. -/
def switchStep (v : SvcId) (c : Cell) (s : State) : State :=
  match (s.svc v).state with
  | .cueing => cueingStep v c s
  | .inserting => insertingStep v c s
  | .returning => returningStep v c s
  | _ => s

/-- Step 5 of R23: the cell is offered to the FIFO with the network mark, or discarded (R42). -/
def dispose (v : SvcId) (r : RouteId) (c : Cell) (s : State) : State :=
  let x := s.svc v
  if x.state = .network ∨ x.state = .cueing then
    let t := offer r { c with discontinuity := c.discontinuity || x.networkMark } s
    if fifoRoom s (s.route r).outLane then t.modSvc v (fun y => { y with networkMark := false }) else t
  else s

/-- One network cell of a tracked service: break, stamps, due and missed checks, switching decisions, disposition
(R23). -/
def networkCell (v : SvcId) (r : RouteId) (c : Cell) (s : State) : State :=
  let s := if c.discontinuity then breakStep v s else s
  let fresh := (s.svc v).lastPs.isNone
  let s := s.modSvc v (fun x => x.track c s.now)
  let s := match c.ps with
    | some p => givePs v fresh p s
    | none => s
  dispose v r c (switchStep v c s)

/-! ### Lane loss and return (R37, R39) -/

/-- A lane loss applied to one service (R37). -/
def sourceLost (v : SvcId) (s : State) : State :=
  let x := s.svc v
  match x.state, x.kind with
  | .network, _ => if x.lossWaiting then s else lossFill v s
  | .cueing, _ => lossFill v (leaveCueing v .missed fSourceLost s)
  | .returning, some .loss =>
    if (lossSlot s v).isSome then
      s.modSvc v (fun y =>
        { y with state := .inserting, backstop := none, returnRef := none, returnPending := false,
                 returnFlags := .clear })
    else lossFill v (goNetwork v s)
  | .returning, some .alert => lossFill v (goNetwork v s)
  | _, _ => s

/-- A lane's return applied to one service (R39). -/
def sourceBack (v : SvcId) (s : State) : State :=
  let x := s.svc v
  match x.state, x.kind with
  | .inserting, some .loss =>
    s.modSvc v (fun y => { y with state := .returning, backstop := some (returnBackstop s v), returnRef := none })
  | .network, _ =>
    if x.lossWaiting then (s.leaveWait (.loss v)).modSvc v (fun y => { y with lossWaiting := false }) else s
  | _, _ => s

/-! ### Alert ownership, service side (R40, R41) -/

/-- The current activity of a service that gains an owner is ended (R40). -/
def endActivity (v : SvcId) (s : State) : State :=
  let x := s.svc v
  match x.state, x.kind with
  | .off, _ => s.modSvc v (fun y => { y.dropClock with lastPs := none })
  | .network, _ =>
    if x.lossWaiting then (s.leaveWait (.loss v)).modSvc v (fun y => { y with lossWaiting := false }) else s
  | .cueing, _ => leaveCueing v .missed fAlert s
  | .inserting, some .loss => dropLossSlot v s
  | .returning, some .loss => dropLossSlot v s
  | _, some .ad =>
    match x.event with
    | some e => onSlot (s.event e).slot releaseSlot (closeEvent e .aborted (fAlert.union fTruncated) s)
    | none => s
  | _, _ => s

/-- A service attached to the ring of its owner's slot, if it has a route (R40, R147). -/
def joinOwner (v : SvcId) (a : AlertId) (s : State) : State :=
  if (s.routeOf v).isSome then onSlot (s.alert a).slot (fun k => attachJoin k v) s else s

/-- Owner gained (R40). -/
def ownerGained (v : SvcId) (a : AlertId) (s : State) : State :=
  joinOwner v a ((endActivity v s).modSvc v (fun x =>
    { x.toNetwork with state := .alert, owner := some a, insertMark := true }))

/-- Owner changed (R41). DESIGN CHOICE (log entry 50): a service without a route, which is not attached to a ring, keeps
its shed level, pattern counter and lateness. -/
def ownerChanged (v : SvcId) (a : AlertId) (s : State) : State :=
  joinOwner v a ((detach v s).modSvc v (fun x => { x with owner := some a, insertMark := true }))

/-- Owner lost (R41). -/
def ownerLost (v : SvcId) (s : State) : State :=
  let t := (detach v s).modSvc v (fun x => { x.toNetwork with owner := none })
  match t.routeOf v with
  | none => t
  | some _ =>
    if t.laneUp v then
      t.modSvc v (fun x => { x with state := .returning, kind := some .alert, backstop := some (returnBackstop t v) })
    else lossFill v t

/-! ### A slot taken by reclaim, owner's side (R30, R32, R38, R106 step 1) -/

/-- The event that loses its slot to a reclaim (R30, R32). -/
def reclaimEvent (e : EventId) (s : State) : State :=
  let v := (s.event e).service
  if (s.event e).state = .cueing then goNetwork v (closeEvent e .missed fAlert s)
  else
    (reportActive e (some .aborted) (fAlert.union fTruncated) s).modSvc v Service.cutShort
      |>.modEvent e (fun x => { x with slot := none })

/-- The loss fill that loses its slot to a reclaim (R38). -/
def reclaimLoss (v : SvcId) (s : State) : State :=
  if (s.svc v).state = .returning then s
  else s.modSvc v (fun x => { x.toNetwork with dark := true })

def reclaimTold (o : Option Owner) (s : State) : State :=
  match o with
  | some (.event e) => reclaimEvent e s
  | some (.loss v) => reclaimLoss v s
  | _ => s

end Sys2Proof.Machine
end

