-- ==== Sys2Proof/Machine/Alerts.lean ====
section
/-!
DEFINITION. The alert controller: activation, reclaim, ownership, lease, end, faults (chapter 8, R105, R106).
-/
namespace Sys2Proof.Machine

/-- The lease period of a lease code, in milliseconds (section 8.1). -/
def leasePeriod (code : Fin 8) : Nat := ([2, 5, 10, 20, 30, 60, 120, 300].getD code.val 0) * 1000

/-- A renewal: the lease deadline is set afresh, and nothing else changes (R149). -/
def renewLease (a : AlertId) (s : State) : State :=
  s.modAlert a (fun x => { x with deadline := some (s.now + millis (leasePeriod x.leaseCode)) })

/-! ### Ownership (R145) -/

/-- The priority number of a channel; a channel without one stands behind all others. -/
def Alert.rank (x : Alert) : Nat := (x.priority.map Fin.val).getD 8

/-- The live channels whose target group contains the service. -/
def claimingChannels (s : State) (v : SvcId) : List AlertId :=
  s.alerts.indices (fun _ x => decide (x.state ≠ .idle) && x.group.getLsbD v.val)

/-- The channel of highest priority in a list: the lowest priority number. -/
def bestChannel (s : State) : List AlertId → Option AlertId
  | [] => none
  | a :: l =>
    match bestChannel s l with
    | none => some a
    | some b => if (s.alert a).rank ≤ (s.alert b).rank then some a else some b

/-- The owner that a service should have (R145). -/
def ownerDue (s : State) (v : SvcId) : Option AlertId := bestChannel s (claimingChannels s v)

/-- The report for one service: owner gained, changed, lost, or none (R145). -/
def reportOwner (s : State) (v : SvcId) : State :=
  match (s.svc v).owner, ownerDue s v with
  | none, some c => ownerGained v c s
  | some b, some c => if b = c then s else ownerChanged v c s
  | some _, none => ownerLost v s
  | none, none => s

/-- The recomputation for the services of a group, in ascending index (R145). -/
def recompute (group : BitVec 64) (s : State) : State := (groupList group).foldl reportOwner s

/-! ### Reclaim (R105, R106) -/

/-- The service of the ad event that owns the slot, if the event is in one of the given states. -/
def adService (s : State) (x : Slot) (states : List EventState) : Option SvcId :=
  match x.owner with
  | some (.event e) => if (s.event e).state ∈ states then some (s.event e).service else none
  | _ => none

/-- Station millisecond `a` is later than `b`. -/
def laterMs (a b : Ms) : Bool := passed b a && decide (a ≠ b)

/-- The slot with the latest exit millisecond; the lowest number among equals (R105 step 3). -/
def latestExit (s : State) : List SlotId → Option SlotId
  | [] => none
  | k :: l =>
    match latestExit s l with
    | none => some k
    | some j =>
      match (s.slot k).exitMs, (s.slot j).exitMs with
      | some a, some b => if laterMs b a then some j else some k
      | none, some _ => some j
      | _, none => some k

/-- The victim of a reclaim for a target group (R105). -/
def victim (s : State) (group : BitVec 64) : Option SlotId :=
  let inGroup := s.slots.find? (fun _ x =>
    match adService s x [.cueing, .active] with
    | some v => group.getLsbD v.val
    | none => false)
  let loss := s.slots.find? (fun _ x => match x.owner with | some (.loss _) => true | _ => false)
  let active := latestExit s (s.slots.indices (fun _ x => (adService s x [.active]).isSome))
  let cueing := s.slots.find? (fun _ x => (adService s x [.cueing]).isSome)
  ((inGroup.or loss).or active).or cueing

/-- The reclaim of slot `k` for channel `a` (R106). -/
def reclaim (k : SlotId) (a : AlertId) (s : State) : State :=
  claimSlot k (.alert a) (emptySlot k (reclaimTold (s.slot k).owner s))

/-! ### Activation and end (R144, R151) -/

/-- Step 1 of an activation: a FREE slot, or one reclaimed (R144). -/
def alertSlot (a : AlertId) (s : State) : State × Option SlotId :=
  match freeSlot s with
  | some k => (claimSlot k (.alert a) s, some k)
  | none =>
    match victim s (s.alert a).group with
    | some k => (reclaim k a s, some k)
    | none => (s, none)

/-- The activation of an IDLE channel, as one event (R144). -/
def activate (a : AlertId) : State → State :=
  oneEvent fun s =>
    let (t, k) := alertSlot a s
    let t := (renewLease a t).modAlert a (fun x => { x with slot := k, state := .active, faults := 0 })
    recompute (t.alert a).group t

/-- The end of a live channel, as one event (R151). -/
def endChannel (a : AlertId) : State → State :=
  oneEvent fun s =>
    let t := onSlot (s.alert a).slot releaseSlot s
    let t := t.modAlert a (fun x => { x with state := .idle, deadline := none, slot := none })
    recompute (t.alert a).group t

/-- A counter's ALERT_ON target, by the channel's state (R143). -/
def counterAlertOn (a : AlertId) (s : State) : State :=
  let x := s.alert a
  if x.state ≠ .idle then renewLease a s
  else if x.masked || x.priority.isNone then s.modAlert a (fun y => { y with blocked := true })
  else activate a s

/-- A counter's ALERT_RENEW target (R149, R168). -/
def counterAlertRenew (a : AlertId) (s : State) : State := if s.live a then renewLease a s else s

/-- The lapse of a lease: LAPSED is set and the channel ends (R148). -/
def lapse (a : AlertId) (s : State) : State :=
  endChannel a (s.modAlert a (fun x => { x with lapsed := true }))

/-! ### Faults and recovery (R152, R153) -/

/-- A skipped fault reported on a live channel's slot (R152). -/
def alertFault (a : AlertId) (s : State) : State :=
  s.modAlert a (fun x =>
    if x.state = .idle then x
    else
      let y := { x with faults := sat16 x.faults }
      if x.state = .active ∧ 4 ≤ y.faults then { y with state := .stalled, stallSeen := true } else y)

/-- A cell written into a live channel's slot (R153). -/
def alertWritten (a : AlertId) (s : State) : State :=
  s.modAlert a (fun x => if x.state = .idle then x else { x with faults := 0, state := .active })

end Sys2Proof.Machine
end

