-- ==== Sys2Proof/Machine/StorePort.lean ====
section
/-!
DEFINITION. The store port and what the feeder does with a finished fetch (chapter 6, R86, R95, R96, R98).
-/
namespace Sys2Proof.Machine

/-! ### A finished fetch at the feeder -/

/-- The cursor of a slot advanced past the cell under it (R96 step 4). -/
def advanceCursor (k : SlotId) (s : State) : State :=
  s.modSlot k (fun x => x.advance (s.clip x.clipUnder))

/-- A cell written into a slot's ring: sequence number, converted stamps, fault count (R96 steps 1-3). -/
def Slot.append (clip : Clip) (c : Cell) (x : Slot) : Slot :=
  { x with
    ring := x.ring ++ [⟨c, x.cursor.pass, convert clip x.feedStart c.rs, convert clip x.feedStart c.ps⟩]
    written := x.written + 1, faults := 0 }

/-- A loss slot whose ring reaches 8 cells for the first time attaches its owner (R96, R99). -/
def attachLoss (k : SlotId) (s : State) : State :=
  let x := s.slot k
  match x.owner with
  | some (.loss v) =>
    if x.readers = [] ∧ x.ring.length = Config.prefillCells then attach k v x.tail .join s else s
  | _ => s

/-- The report of a written cell to an alert slot's channel (R96 step 3). -/
def reportWritten (k : SlotId) (s : State) : State :=
  match (s.slot k).owner with
  | some (.alert a) => alertWritten a s
  | _ => s

/-- A valid MEDIA cell written into the ring (R96). -/
def writeCell (k : SlotId) (c : Cell) (s : State) : State :=
  let t := s.modSlot k (fun x => x.append (s.clip x.clipUnder) c)
  settleRing k (attachLoss k (advanceCursor k (reportWritten k t)))

/-- A cell skipped: the cursor passes it, and the slot counts the fault (R98). -/
def skipCell (k : SlotId) (s : State) : State :=
  (advanceCursor k s).modSlot k (fun x => { x with faults := sat16 x.faults })

/-- A store fault at an ad event's slot, by the event's state (R30, R32, R98). -/
def adFault (k : SlotId) (e : EventId) (s : State) : State :=
  match (s.event e).state with
  | .cueing => endCueing e .aborted fStoreFault s
  | .active => stopFetch k (earlyEnd e (some .aborted) (fStoreFault.union fTruncated) s)
  | _ => s

/-- A faulted fetch, by the slot's owner; ignored if the slot has no fetch in flight or its fetch end is set (R98). -/
def fetchFault (k : SlotId) (s : State) : State :=
  let x := s.slot k
  let t := s.modSlot k (fun y => { y with inFlight := none })
  if x.inFlight.isNone ∨ x.fetchEnd ≠ .none then t
  else
    match x.owner with
    | none => t
    | some (.event e) => adFault k e t
    | some (.loss _) => skipCell k t
    | some (.alert a) => alertFault a (skipCell k t)

/-- STORE_FAULT_SEEN of the part record is set (R119). -/
def State.faultSeen (s : State) : State := { s with storeFaultSeen := true }

/-- A fetch completed with its 256 bytes (R96): discarded if the slot has no fetch in flight or its fetch end is set, a
faulted fetch if the cell is invalid or not MEDIA, else written. -/
def fetchDone (k : SlotId) (bytes : List Byte) (s : State) : State :=
  let x := s.slot k
  let t := s.modSlot k (fun y => { y with inFlight := none })
  if x.inFlight.isNone ∨ x.owner.isNone ∨ x.fetchEnd ≠ .none then t
  else
    match judge bytes with
    | some c => if c.kind = .media then writeCell k c t else fetchFault k s.faultSeen
    | none => fetchFault k s.faultSeen

/-! ### Request and tenure -/

/-- The slots that want a cell (R95), ascending. -/
def wantingSlots (s : State) : List SlotId := s.slots.indices (fun _ x => x.wants)

/-- The duty count is below the duty limit and a slot wants a cell (R110, R112). -/
def cellWanted (s : State) : Bool := decide (s.port.duty < s.port.dutyLimit) && !(wantingSlots s).isEmpty

/-- The test of an IDLE port (R110). -/
def portTest (s : State) : State :=
  if s.port.phase = .idle ∧ (s.port.resume ∨ cellWanted s) then s.modPort (fun p => { p with phase := .requesting })
  else s

/-- The gap is over: the port goes IDLE and makes the test at once (R118). -/
def gapOver (s : State) : State := portTest (s.modPort (fun p => { p with phase := .idle, gapCount := 0 }))

/-- The tenure ends: RELEASING with the fairness gap to wait, or at once IDLE without one (R112, R118). -/
def endTenure (s : State) : State :=
  let t := s.modPort (fun p => { p with phase := .releasing, gapCount := p.gap })
  if s.port.gap = 0 then gapOver t else t

/-- How the arbiter ranks a wanting slot: alert slots by priority number, then the others by ring occupancy (R113). -/
def arbiterRank (s : State) (k : SlotId) : Nat :=
  match (s.slot k).owner with
  | some (.alert a) => (s.alert a).rank
  | _ => 9 + (s.slot k).ring.length

/-- The arbiter's choice: the lowest rank, and the lowest slot number among equals (R113). -/
def choose (s : State) : List SlotId → Option SlotId
  | [] => none
  | k :: l =>
    match choose s l with
    | none => some k
    | some j => if arbiterRank s k ≤ arbiterRank s j then some k else some j

/-- The store address of a cell of a clip (R86). -/
def storeAddress (w : Window) (c : Clip) (k : Nat) : Stamp := w.base + ticks ((c.offset + 256 * k) % w.length)

/-- The wanted cell of a slot cannot be fetched: its clip is FREE or its window not enabled (R86, R121). -/
def unreadable (s : State) (k : SlotId) : Bool :=
  let c := s.clip (s.slot k).clipUnder
  decide (c.state = .free) || !(s.window c.window).enabled

/-- The slot's wanted cell taken by the port: tenure and duty counted, the cursor recorded (R95, R112, R113). -/
def takeCell (k : SlotId) (s : State) : State :=
  (s.modPort (fun p => { p with tenure := p.tenure + 1, duty := p.duty + 1 })).modSlot k
    (fun x => { x with inFlight := some x.cursor })

/-- The fetch of a slot's wanted cell, at its first burst (R86, R115). -/
def startFetch (s : State) (k : SlotId) : Fetch :=
  let x := s.slot k
  let c := s.clip x.clipUnder
  { slot := k, point := x.cursor, addr := storeAddress (s.window c.window) c x.cursor.cell, burst := 0, beat := none,
    retry := 0 }

/-- What the OWNER port does next (R112). The fuel bounds the cells that end at once (R121): each counts toward the
tenure limit, which is at most 8. -/
def decideNext : Nat → State → State
  | 0, s => endTenure s
  | n + 1, s =>
    if s.port.tenureLimit ≤ s.port.tenure then endTenure s
    else if s.port.resume then s.modPort (fun p => { p with resume := false, tenure := p.tenure + 1 })
    else if s.port.duty < s.port.dutyLimit then
      match choose s (wantingSlots s) with
      | none => endTenure s
      | some k =>
        if unreadable s k then decideNext n (fetchFault k (takeCell k s).faultSeen)
        else (takeCell k s).modPort (fun p => { p with fetch := some (startFetch s k), buffer := [] })
    else endTenure s

/-- The next step of an OWNER port. -/
def nextStep (s : State) : State := decideNext 9 s

/-- The port takes the bus: OWNER with tenure count 0 (R111, R112). -/
def takeBus (s : State) : State := nextStep (s.modPort (fun p => { p with phase := .owner, tenure := 0 }))

/-- A grant in REQUESTING: taken at once with fast arbitration, else when bus-busy is released (R111). -/
def grantStep (busBusy : Bool) (s : State) : State :=
  if s.port.phase = .requesting ∧ (s.port.fast ∨ busBusy = false) then takeBus s else s

/-! ### Answers, back-off, gap -/

/-- The store's answer lines (section 6.2). -/
structure Answer where
  ack : Bool
  error : Bool
  inhibit : Bool
deriving DecidableEq, Repr

/-- The current fetch dropped, with its buffer. -/
def dropFetch (s : State) : State := s.modPort (fun p => { p with fetch := none, buffer := [], abandon := false })

/-- A fault of the current fetch (R119). -/
def portFault (f : Fetch) (s : State) : State := nextStep (fetchFault f.slot (dropFetch s).faultSeen)

/-- Burst `f.burst` is complete with `buffer` accepted: the next burst, or the finished cell (R115). -/
def burstDone (f : Fetch) (buffer : List Byte) (s : State) : State :=
  if f.burst = 7 then nextStep (fetchDone f.slot buffer (dropFetch s))
  else s.modPort (fun p =>
    { p with buffer := buffer, fetch := some { f with burst := f.burst + 1, beat := none, retry := 0 } })

/-- The answer to the burst, or the single beat, under way (R116). -/
def answerStep (f : Fetch) (ans : Answer) (data : List Byte) (s : State) : State :=
  if ans.ack && ans.error then
    if Config.retryLimit ≤ f.retry then portFault f s
    else s.modPort (fun p => { p with fetch := some { f with retry := f.retry + 1 } })
  else if ans.ack then
    match f.beat with
    | none =>
      if ans.inhibit then
        s.modPort (fun p => { p with buffer := p.buffer ++ data.take 8, fetch := some { f with beat := some 1 } })
      else burstDone f (s.port.buffer ++ data.take 32) s
    | some j =>
      if j < 3 then
        s.modPort (fun p =>
          { p with buffer := p.buffer ++ data.take 8, fetch := some { f with beat := some (j + 1) } })
      else burstDone f (s.port.buffer ++ data.take 8) s
  else portFault f s

/-- The store's answer to an OWNER port: an abandoned fetch ends with its burst (R120), a burst left over from a RESTART
ends the tenure (R122), any other answer is taken by R116. -/
def burstAnswerStep (ans : Answer) (data : List Byte) (s : State) : State :=
  if s.port.phase = .owner then
    match s.port.fetch with
    | none => endTenure s
    | some f => if s.port.abandon then nextStep (dropFetch s) else answerStep f ans data s
  else s

/-- The back-off of an OWNER port: the tenure ends, and the interrupted burst is kept to be issued again from its first
beat; the earlier bursts' bytes stay (R117). An abandoned fetch ends here. -/
def backOffStep (s : State) : State :=
  if s.port.phase = .owner then
    match s.port.fetch with
    | none => endTenure s
    | some f =>
      if s.port.abandon then endTenure (dropFetch s)
      else endTenure (s.modPort (fun p =>
        { p with resume := true, buffer := p.buffer.take (32 * f.burst), fetch := some { f with beat := none } }))
  else s

/-- The end of the fairness gap (R118). -/
def gapEndStep (s : State) : State := if s.port.phase = .releasing then gapOver s else s

/-- One store clock: in RELEASING the gap count falls by one, and at 0 the port goes IDLE (R118). -/
def storeClock (s : State) : State :=
  if s.port.phase = .releasing then
    if s.port.gapCount ≤ 1 then gapOver s else s.modPort (fun p => { p with gapCount := p.gapCount - 1 })
  else s

/-! ### The lines the port drives (section 6.2) -/

/-- The request line is asserted (R110, R111). -/
def Port.request (p : Port) : Bool := decide (p.phase = .requesting)
/-- The acknowledge line and the bus-busy line are asserted (R111, R112). -/
def Port.acknowledge (p : Port) : Bool := decide (p.phase = .owner)
def Port.busBusy (p : Port) : Bool := decide (p.phase = .owner)
/-- The address and the beat count of the transfer under way (R115). -/
def Port.transfer (p : Port) : Option (Stamp × Nat) :=
  if p.phase = .owner then
    p.fetch.map (fun f =>
      match f.beat with
      | none => (f.addr + ticks (32 * f.burst), 4)
      | some j => (f.addr + ticks (32 * f.burst + 8 * j), 1))
  else none

end Sys2Proof.Machine
end

