-- ==== Sys2Proof/Machine/CueUnit.lean ====
section
/-!
DEFINITION. Cue lines, tallies and cue counters (chapter 9), and starting an event out of turn (R53, R54).
-/
namespace Sys2Proof.Machine

/-! ### Starting an event (R53, R54) -/

/-- The effect of SPLICE_NOW on a SCHEDULED event (R53, with the clip check of R52). -/
def spliceEvent (e : EventId) (s : State) : State :=
  let v := (s.event e).service
  let x := s.svc v
  if clipsGone s e then closeScheduled e .missed fStoreFault s
  else if x.state = .network then
    if s.laneUp v then cue v e (s.modEvent e (fun y => { y with s := none }))
    else closeScheduled e .missed fSourceLost s
  else closeScheduled e .missed (busyFlags x) s

/-! ### Clock events (R165, R166) -/

/-- The gate admits a clock event, by the debounced level of its line as it stands (R166). -/
def gateOpen (s : State) : Gate → Bool
  | .always => true
  | .lineHigh n => decide ((s.line n).debounced = .high)
  | .lineLow n => decide ((s.line n).debounced = .low)

/-- The line that a gate names. -/
def Gate.line? : Gate → Option LineId
  | .always => none
  | .lineHigh n => some n
  | .lineLow n => some n

def State.addDue (s : State) (d : Due) : State := { s with due := s.due ++ [d] }
def State.isDue (s : State) (d : Due) : Bool := s.due.contains d

/-- A clock event that waits for the counter, admitted already or not. -/
def Due.clocks (c : CounterId) : Due → Bool
  | .clock d => decide (d = c)
  | .pulse d => decide (d = c)
  | _ => false

/-- The clock events that wait for a counter that stops: a STOPPED counter ignores them (R165, log entry 27). -/
def State.dropClocks (s : State) (c : CounterId) : State := { s with due := s.due.filter (fun d => !d.clocks c) }

/-- A clock event that reaches a counter (R165-R167): ignored by a STOPPED counter and by a gate that is closed now; an
admitted one that does not make the count 0 is taken at once; the one that does falls due as a step of its own
(COUNTER_EXPIRY), and an admitted one behind it is counted after it. -/
def clockCounter (c : CounterId) (s : State) : State :=
  let x := s.counter c
  if !x.running then s
  else if !gateOpen s x.gate then s
  else if s.isDue (.clock c) || decide (x.count ≤ 1) then s.addDue (.clock c)
  else s.modCounter c (fun y => { y with count := y.count - 1 })

/-- The counters with a given clock source, ascending. -/
def countersOf (s : State) (src : ClockSource) : List CounterId :=
  s.counters.indices (fun _ x => decide (x.source = src))

/-- A clock event of a source given to its counters (R165). -/
def clockSource (src : ClockSource) (s : State) : State := (countersOf s src).foldl (fun t c => clockCounter c t) s

/-- A change of the line that gates the counter has fallen due. -/
def gateChanging (s : State) (c : CounterId) : Bool :=
  match (s.counter c).gate.line? with
  | some n => s.isDue (.debounce n)
  | none => false

/-- A station millisecond given to a counter at its tick (R165): with a debounced edge of its gate's line due at the same
tick, either may be taken first (R166), so that the event waits as a step of its own; else it reaches the counter. DESIGN
CHOICE (log entry 49): it is counted before a change of an output gate line that LEASE_LAPSE, BACKSTOP or LANE_LOSS of the
same tick makes. -/
def clockMs (s : State) (c : CounterId) : State :=
  if (s.counter c).running && gateChanging s c then s.addDue (.pulse c) else clockCounter c s

/-! ### Lines (R158-R161) -/

/-- A change to `new` is selected (R160). -/
def EdgeSelect.selects (e : EdgeSelect) (new : Level) : Bool :=
  match e, new with
  | .both, _ => true
  | .rise, .high => true
  | .fall, .low => true
  | _, _ => false

/-- An edge of a line: the debounced level changes, and a selected edge clocks the counters of that line (R160). -/
def lineEdge (n : LineId) (new : Level) (s : State) : State :=
  let t := s.modLine n (fun x => { x with debounced := new })
  if (s.line n).edge.selects new then clockSource (.edges n) t else t

def Level.of (b : Bool) : Level := if b then .high else .low

/-- Service `v` is carrying local material (R161). -/
def Service.insertingTally (x : Service) : Bool :=
  (decide (x.state = .inserting) || decide (x.state = .returning)) &&
    (decide (x.kind = some .ad) || decide (x.kind = some .loss))

/-- The level that a tally source gives (R161). -/
def tallyLevel (s : State) : Tally → Level
  | .driven0 => .low
  | .driven1 => .high
  | .serviceInserting v => Level.of (s.svc v).insertingTally
  | .alertActive a => Level.of (s.live a)
  | .anyAlert => Level.of ((List.finRange 8).any s.live)

/-- An output line drives a level; a change is an edge (R160, R161). -/
def drive (n : LineId) (new : Level) (s : State) : State :=
  let t := s.modLine n (fun x => { x with sampled := new })
  if (s.line n).debounced = new then t else lineEdge n new t

/-- An output line follows its tally source (R161). -/
def followTally (s : State) (n : LineId) : State :=
  if (s.line n).direction = .output then drive n (tallyLevel s (s.line n).tally) s else s

/-- The output lines follow their tally sources once an event of the part is complete, in ascending index (R161). -/
def settleTallies (s : State) : State := (List.finRange 8).foldl followTally s

/-- What follows an event that may change services, alert channels or rings: the tallies, and the store port's test. -/
def finish (s : State) : State := portTest (settleTallies s)

/-- An event that led from `s` to `t` took the current cell from an OWNER port between two transfers (R120). -/
def cellDropped (s t : State) : Bool :=
  decide (t.port.phase = .owner) && s.port.fetch.isSome && t.port.fetch.isNone

/-- What follows an event that led from `s` to `t` and may have released slots: an OWNER port whose cell ended with it
decides what comes next (R112, R120), then the tallies and the port's test. -/
def finishFrom (s t : State) : State := finish (if cellDropped s t then oneEvent nextStep t else t)

/-- One event of the part outside the port's own steps, with what follows it. -/
def event (f : State → State) (s : State) : State := finishFrom s (oneEvent f s)

/-- One input line at a tick (R158, R159): a line just set IN takes the sample with no edge; else the pending count
follows the comparison, and a change due falls due as a step of its own (DEBOUNCE_EDGE). -/
def sampleLine (pins : BitVec 8) (s : State) (n : LineId) : State :=
  let x := s.line n
  let level := Level.of (pins.getLsbD n.val)
  if x.direction = .output then s
  else if x.reinit then
    s.modLine n (fun y => { y with sampled := level, debounced := level, pending := 0, reinit := false })
  else
    let t := s.modLine n (fun y => { y with sampled := level })
    if level = x.debounced then t.modLine n (fun y => { y with pending := 0 })
    else if x.pending < x.debounce then t.modLine n (fun y => { y with pending := y.pending + 1 })
    else t.addDue (.debounce n)

/-- The debounced edge of an input line (R159, R160). -/
def debounceStep (n : LineId) (s : State) : State :=
  let x := s.line n
  if x.direction = .input ∧ x.reinit = false ∧ x.sampled ≠ x.debounced then
    lineEdge n x.sampled (s.modLine n (fun y => { y with pending := 0 }))
  else s

/-! ### Expiry (R167-R169) -/

/-- The target fired at an expiry (R168). -/
def fireTarget (t : Target) (s : State) : State :=
  match t with
  | .nothing => s
  | .event e => if (s.event e).state = .scheduled then spliceEvent e s else s
  | .alertOn a => counterAlertOn a s
  | .alertRenew a => counterAlertRenew a s

/-- Step 1 of an expiry, by the counter's mode (R167). -/
def Counter.expired (x : Counter) : Counter :=
  match x.mode with
  | .oneShot => { x with count := 0, running := false }
  | .periodic => { x with count := x.reload }

/-- A counter set going or stopped by its expiry (R167 step 1); one that stops takes no event that still waits for it. -/
def expireCounter (c : CounterId) (s : State) : State :=
  let t := s.modCounter c Counter.expired
  if (s.counter c).mode = .oneShot then t.dropClocks c else t

/-- The counter above, if there is one. -/
def counterAbove (c : CounterId) : Option CounterId := index? 16 (c.val + 1)

/-- An admitted clock event taken by a counter: the count falls, and at 0 the counter expires, fires its target and
passes the expiry to the counter above, whose gate judges it as it then stands (R166, R167, R169). A counter that has
stopped meanwhile ignores it. The fuel bounds the chain of 16 counters. -/
def takeClock : Nat → CounterId → State → State
  | 0, _, s => s
  | n + 1, c, s =>
    let x := s.counter c
    if !x.running then s
    else if 1 < x.count then s.modCounter c (fun y => { y with count := y.count - 1 })
    else
      let t := fireTarget x.target (expireCounter c s)
      match counterAbove c with
      | none => t
      | some d =>
        if (t.counter d).source = .expiry ∧ gateOpen t (t.counter d).gate then takeClock n d t else t

/-- The waiting clock event of a counter is taken, with the expiry it makes, as one event of the cue unit (R167). -/
def expiryStep (c : CounterId) (s : State) : State := event (takeClock 16 c) s

/-- A station millisecond that waited reaches its counter: the gate judges it as it stands now (R166). -/
def pulseStep (c : CounterId) (s : State) : State := if gateOpen s (s.counter c).gate then expiryStep c s else s

/-! ### Events with the expiries they make -/

/-- A counter with a clock event due in `t` beyond those of `old`. -/
def freshClock (old t : List Due) : Option CounterId :=
  (List.finRange 16).find? (fun c => decide (old.count (.clock c) < t.count (.clock c)))

/-- The clock events that came due since `old` are taken, in ascending counter index, each behind those that already
waited for its counter, until none is left. -/
def takeFresh : Nat → List Due → State → State
  | 0, _, s => s
  | n + 1, old, s =>
    match freshClock old s.due with
    | none => s
    | some c =>
      takeFresh n (old.filter (fun d => decide (d ≠ .clock c)))
        (expiryStep c { s with due := s.due.erase (.clock c) })

/-- What a step that led from `s` to `t` leaves once the expiries that its clock events make are complete (R167, R175).
The fuel bounds them: only an alert activation makes the edges of a further round, and there are 8 channels. -/
def settleFresh (s t : State) : State := takeFresh (2048 + t.due.length) s.due t

/-- A step carried out whole, with the expiries that it makes. -/
def whole (f : State → State) (s : State) : State := settleFresh s (f s)

end Sys2Proof.Machine
end

