-- ==== Sys2Proof/Machine/LaneScheduler.lean ====
section
/-!
DEFINITION. The lane schedulers: rate windows, cell positions, responses, inserted cells, lateness, holds, shedding
(chapter 7, R17, R18, R68).
-/
namespace Sys2Proof.Machine

/-! ### Emission of a media cell for a route (R17, R18) -/

/-- The cell as it leaves for a route: the route's tag and continuity, and DISCONTINUITY if the route's restart mark is
set (R17, R18). -/
def retag (x : Route) (c : Cell) : Cell :=
  { c with tag := x.outTag, continuity := x.continuity, discontinuity := c.discontinuity || x.restartMark }

/-- The route after an emission: its count advances, its restart mark is cleared (R17, R18). -/
def Route.emitted (x : Route) : Route := { x with continuity := x.continuity + 1, restartMark := false }

/-- A cell placed in the lane's present position (R126). -/
def place (n : OutLaneId) (c : Cell) (s : State) : State :=
  s.modOutLane n (fun o => { o with out := some c, position := o.position + 1 })

/-- A media cell emitted for a route on a lane (R17). -/
def emitMedia (n : OutLaneId) (r : RouteId) (c : Cell) (s : State) : State :=
  place n (retag (s.route r) c) (s.modRoute r Route.emitted)

/-! ### Responses (R127) -/

/-- Indices below `n`, ascending, in the cyclic order that begins after `last`, or at 0. -/
def cyclicAfter (n : Nat) (last : Option (Fin n)) : List (Fin n) :=
  match last with
  | none => List.finRange n
  | some i => (List.finRange n).filter (fun j => decide (i.val < j.val)) ++
      (List.finRange n).filter (fun j => decide (j.val ≤ i.val))

/-- The channel has a response candidate on the lane (R127). -/
def isCandidate (s : State) (n : OutLaneId) (h : ChannelId) : Bool :=
  (s.channel h).enabled && decide ((s.channel h).respLane = n) && !(s.channel h).queue.isEmpty

/-- The channel that the response rotation chooses (R127). -/
def responseChannel (s : State) (n : OutLaneId) : Option ChannelId :=
  (cyclicAfter 4 (s.outLane n).respRot).find? (isCandidate s n)

/-- The head of a channel's queue emitted; `reserve` at step 1 (R127). -/
def emitResponse (n : OutLaneId) (h : ChannelId) (reserve : Bool) (s : State) : State :=
  match (s.channel h).queue with
  | [] => s
  | c :: q =>
    (place n c (s.modChannel h (fun x => { x with queue := q }))).modOutLane n
      (fun o => { o with respRot := some h, reserveUsed := o.reserveUsed || reserve })

/-! ### Inserted cells (R130-R135) -/

/-- A service's route lies on the lane. -/
def onLane (s : State) (n : OutLaneId) (v : SvcId) : Option RouteId :=
  match s.routeOf v with
  | some r => if (s.route r).outLane = n then some r else none
  | none => none

/-- The head of a service's reader: the slot, the reader and the ring cell at its read position, for a reader that does
not seek (R100, R101). -/
def headOf (s : State) (v : SvcId) : Option (SlotId × RingCell) :=
  match (s.svc v).slot with
  | none => none
  | some k =>
    match (s.slot k).readerOf v with
    | none => none
    | some r => if r.seek = .none then ((s.slot k).cellAt r.pos).map (fun c => (k, c)) else none

/-- The route under which a service may have an inserted cell emitted at step 2, if it is eligible but for its head:
allotment left, not held, no cell of its route in the FIFO (R130). DESIGN CHOICE (log entry 43): a service whose route was
freed and bound again on the lane within the window may use what it had left. -/
def mayInsert (s : State) (n : OutLaneId) (v : SvcId) : Option RouteId :=
  if (s.outLane n).remaining.get v = 0 ∨ (s.outLane n).held.get v = true then none
  else
    match onLane s n v with
    | some r => if queued s r then none else some r
    | none => none

/-- The ACTIVE ad event whose slot the service reads (R58, R134, R135). -/
def countedEvent (s : State) (v : SvcId) (k : SlotId) : Option EventId :=
  match (s.slot k).owner with
  | some (.event e) => if (s.event e).state = .active ∧ (s.event e).service = v then some e else none
  | _ => none

/-- The reader of a service takes its head (R100). -/
def takeHead (v : SvcId) (k : SlotId) (s : State) : State :=
  settleRing k (s.modSlot k (fun x =>
    { x with readers := x.readers.map (fun r => if r.svc = v then { r with pos := r.pos + 1 } else r) }))

/-- The lateness of a head against a projection; the stored one stands for a head without a valid RS (R132). -/
def latenessOf (x : Service) (proj : Stamp) (c : RingCell) : Int :=
  match c.rs with
  | .pos f => signed (proj - outStamp x.base f)
  | _ => x.lateness

/-- A stamp at emission: rewritten, removed if stray, absent if absent (R68, R74). -/
def RingStamp.output (base : Stamp) : RingStamp → Option Stamp
  | .pos f => some (outStamp base f)
  | _ => none

def RingStamp.strays : RingStamp → Nat
  | .stray => 1
  | _ => 0

/-- The stray count and flag after the emission of a cell with `n` stray stamps (R68). -/
def Service.countStrays (n : Nat) (x : Service) : Service :=
  if n = 0 then x else { x with strayCount := min (x.strayCount + n) 65535, straySeen := true }

/-- An inserted head emitted in the present position (R135). -/
def emitInserted (n : OutLaneId) (v : SvcId) (r : RouteId) (k : SlotId) (c : RingCell) (s : State) : State :=
  let x := s.svc v
  let cell := { c.cell with rs := c.rs.output x.base, ps := c.ps.output x.base
                            discontinuity := c.cell.discontinuity || x.insertMark }
  let t := match countedEvent s v k with
    | some e => s.modEvent e (fun y => { y with inserted := sat32 y.inserted })
    | none => s
  let t := takeHead v k
    (t.modSvc v (fun y => { y.countStrays (c.rs.strays + c.ps.strays) with insertMark := false }))
  (emitMedia n r cell t).modOutLane n
    (fun o => { o with remaining := o.remaining.put v (o.remaining.get v - 1), insRot := some v })

/-- A head shed (R134). -/
def shedHead (v : SvcId) (k : SlotId) (s : State) : State :=
  let t := match countedEvent s v k with
    | some e => s.modEvent e (fun y => { y with shed := sat32 y.shed })
    | none => s
  takeHead v k t

/-- The pattern counter advances (R134). -/
def Service.stepPattern (x : Service) : Service := { x with shedPattern := (x.shedPattern + 1) % 8 }

/-- One service judged in its turn: its heads are held, shed or emitted (R132-R135). The Bool says whether a cell was
emitted. The fuel bounds the sheds of one turn, of which there are at most seven. -/
def judgeService : Nat → OutLaneId → SvcId → RouteId → State → State × Bool
  | 0, _, _, _, s => (s, false)
  | fuel + 1, n, v, r, s =>
    match headOf s v with
    | none => (s, false)
    | some (k, c) =>
      match projection (s.svc v) s.now with
      | none => (emitInserted n v r k c s, true)
      | some proj =>
        let s := s.modSvc v (fun x => { x with lateness := latenessOf x proj c })
        let x := s.svc v
        if (x.cfg.leadLimit : Int) < -x.lateness then
          (s.modOutLane n (fun o => { o with held := o.held.put v true }), false)
        else if !c.cell.essential && decide (x.shedPattern < x.shedLevel) then
          judgeService fuel n v r (shedHead v k (s.modSvc v Service.stepPattern))
        else (emitInserted n v r k c (s.modSvc v Service.stepPattern), true)

/-- The walk of step 2 over the services in rotation (R131). -/
def insertWalk (n : OutLaneId) : List SvcId → State → State × Bool
  | [], s => (s, false)
  | v :: l, s =>
    match mayInsert s n v with
    | none => insertWalk n l s
    | some r =>
      match judgeService 9 n v r s with
      | (t, true) => (t, true)
      | (t, false) => insertWalk n l t

/-! ### A cell position (R126) -/

/-- Steps 3 to 5 of R126: the oldest network cell, a response, or filler (R127, R129, R137). -/
def otherCell (n : OutLaneId) (s : State) : State :=
  match (s.outLane n).fifo with
  | x :: l => emitMedia n x.route x.cell (s.modOutLane n (fun o => { o with fifo := l }))
  | [] =>
    match responseChannel s n with
    | some h => emitResponse n h false s
    | none => place n Cell.fillerCell s

/-- Steps 2 to 5 of R126. -/
def insertOrOther (n : OutLaneId) (s : State) : State :=
  match insertWalk n (cyclicAfter 64 (s.outLane n).insRot) s with
  | (t, true) => t
  | (t, false) => otherCell n t

/-- The choice of R126, step 1 first. -/
def fillPosition (n : OutLaneId) (s : State) : State :=
  if (s.outLane n).reserveUsed then insertOrOther n s
  else
    match responseChannel s n with
    | some h => emitResponse n h true s
    | none => insertOrOther n s

/-- A position of the lane's present window is due: one of its K positions is left, and its time has come, which for the
positions of a window whose end has fallen due is so for all (R125, R126). -/
def positionDue (s : State) (n : OutLaneId) : Bool :=
  let o := s.outLane n
  decide (o.position < o.windowK) &&
    (s.isDue (.window n) || decide (o.position * Config.windowMs < o.windowK * ((s.now - s.windowStart).toNat + 1)))

/-- A cell position filled, if one is due (R126). -/
def positionStep (n : OutLaneId) (s : State) : State :=
  if positionDue s n then finish (fillPosition n s) else s

/-! ### The window (R125, R136) -/

/-- The shed level after the window's end (R136). -/
def nextShed (x : Service) : Nat :=
  if (x.cfg.lateLimit : Int) < x.lateness then min 7 (x.shedLevel + 1)
  else if x.lateness ≤ ((x.cfg.lateLimit / 2 : Nat) : Int) then x.shedLevel - 1
  else x.shedLevel

/-- The window-end update of one service of the lane (R136). -/
def updateShed (n : OutLaneId) (s : State) (v : SvcId) : State :=
  let x := s.svc v
  if x.slot.isSome && (onLane s n v).isSome && (projection x s.now).isSome then
    s.modSvc v (fun y => { y with shedLevel := nextShed y })
  else s

/-- The allotment of a service on the lane in the window that begins (R125 steps 2 and 3). -/
def allotmentOf (s : State) (n : OutLaneId) (v : SvcId) : Nat :=
  match onLane s n v with
  | some r => (s.route r).allotment
  | none => 0

/-- The old window ended and the new one begun (R125). -/
def beginWindow (n : OutLaneId) (s : State) : State :=
  let t := (List.finRange 64).foldl (updateShed n) s
  t.modOutLane n (fun o =>
    { o with windowK := o.capacity, remaining := Vector.ofFn (allotmentOf t n),
             held := Vector.replicate 64 false, reserveUsed := false, position := 0 })

/-- The sum of the allotments of the lane's ACTIVE routes but for one entry (R14, section 7.1). -/
def allottedBut (s : State) (n : OutLaneId) (skip : Option RouteId) : Nat :=
  (s.routes.indices (fun i x => decide (x.state = .active ∧ x.outLane = n ∧ some i ≠ skip))).foldl
    (fun a i => a + (s.route i).allotment) 0

/-- The allotted sum of a lane (section 7.1). -/
def allotted (s : State) (n : OutLaneId) : Nat := allottedBut s n none

end Sys2Proof.Machine
end

