-- ==== Sys2Proof/Machine/RouteStage.lean ====
section
/-!
DEFINITION. The lane receivers and the route stage (chapter 1), and the intake of control cells (R173, R174, R178).
-/
namespace Sys2Proof.Machine

/-! ### The payload of a control cell (section 10.7) -/

/-- A command record as it stands in the payload. -/
structure RawRecord where
  verb : Nat
  table : Nat
  index : Nat
  fields : List Byte
deriving DecidableEq, Repr

/-- A control cell that is not malformed. -/
structure ControlCell where
  seq : Nat
  cls : Fin 4
  records : List RawRecord
deriving DecidableEq, Repr

/-- The announced records, if they stay within the payload (R174). -/
def takeRecords : Nat → List Byte → Option (List RawRecord)
  | 0, _ => some []
  | n + 1, bs =>
    if bs.length < 5 ∨ bs.length < 5 + field bs 4 1 then none
    else
      (takeRecords n (bs.drop (5 + field bs 4 1))).map
        (fun l => ⟨field bs 0 1, field bs 1 1, field bs 2 2, (bs.drop 5).take (field bs 4 1)⟩ :: l)

/-- The payload header and the records of a control cell; none if it is malformed (R174). -/
def parseControl (c : Cell) : Option ControlCell :=
  let bs := c.payload.take c.length
  if bs.length < 4 then none
  else
    match index? 4 (field bs 2 1) with
    | none => none
    | some cls =>
      let n := field bs 3 1
      if n = 0 ∨ 15 < n then none
      else (takeRecords n (bs.drop 4)).map (fun l => ⟨field bs 0 2, cls, l⟩)

/-- The class fixed at intake: the greater of the channel's bound and the requested class; the bound for a malformed
cell (R174, R178). -/
def intakeClass (bound : Fin 4) (c : Cell) : Fin 4 :=
  match parseControl c with
  | some p => max bound p.cls
  | none => bound

/-- The cells of a channel taken in and not yet answered, each with a reserved queue cell (R173). -/
def reserved (s : State) (h : ChannelId) : Nat := (s.intake.filter (fun x => decide (x.ch = h))).length

/-- A control cell for a channel: taken in with a reserved queue cell, or discarded and counted (R173). -/
def intakeCell (h : ChannelId) (c : Cell) (s : State) : State :=
  if (s.channel h).queue.length + reserved s h < Config.queueCells then
    { s with intake := s.intake ++ [⟨h, intakeClass (s.channel h).bound c, c⟩] }
  else s.modChannel h (fun x => { x with overrun := sat16 x.overrun })

/-! ### Lanes and lookup -/

/-- The unrouted count of a lane rises (R8). -/
def countUnrouted (lane : InLaneId) (s : State) : State :=
  s.modInLane lane (fun x => { x with unrouted := sat16 x.unrouted })

/-- The deadline of an UP lane has passed (R5). -/
def lossPassed (s : State) (lane : InLaneId) : Bool :=
  match (s.inLane lane).state, (s.inLane lane).lastArrival with
  | .up, some t => passed (t + millis (s.inLane lane).timeout) s.now
  | _, _ => false

/-- An UP lane whose deadline has passed goes DOWN, and the loss reaches its services in ascending index (R5, R37). -/
def laneLossStep (lane : InLaneId) (s : State) : State :=
  if lossPassed s lane then
    event (fun s => (s.servicesOn lane).foldl (fun t v => sourceLost v t) s)
      (s.modInLane lane (fun x => { x with state := .down }))
  else s

/-- A DOWN lane goes UP, and the return reaches its services (R4, R39). -/
def laneBack (lane : InLaneId) (s : State) : State :=
  if (s.inLane lane).state = .down then
    (s.servicesOn lane).foldl (fun t v => sourceBack v t) (s.modInLane lane (fun x => { x with state := .up }))
  else s

/-- The ACTIVE route that listens on a lane and tag (R9). -/
def matchRoute (s : State) (lane : InLaneId) (tag : BitVec 12) : Option RouteId :=
  s.routes.find? (fun _ r => decide (r.state = .active ∧ r.inLane = lane ∧ r.inTag = tag))

/-- The enabled control channel that listens on a lane and tag (R9). -/
def matchChannel (s : State) (lane : InLaneId) (tag : BitVec 12) : Option ChannelId :=
  s.channels.find? (fun _ x => x.enabled && decide (x.inLane = lane ∧ x.inTag = tag))

/-- The clock events that a network cell of a tracked service gives once it is handled (R165). -/
def clockCell (v : SvcId) (c : Cell) (s : State) : State :=
  let s := if c.isSplice then clockSource (.splicePoints v) s else s
  if c.unitStart then clockSource (.unitStarts v) s else s

/-- A MEDIA cell that matches a route: offered to the FIFO for a through route and an OFF service, handed to the service
engine otherwise; the tallies follow, then the clock events (R10, R161, R165). -/
def mediaCell (r : RouteId) (c : Cell) (s : State) : State :=
  match (s.route r).service with
  | none => offer r c s
  | some v =>
    if (s.svc v).state = .off then offer r c s
    else clockCell v c (settleTallies (oneEvent (networkCell v r c) s))

/-- A valid cell sent according to its kind (R8, R9). -/
def routeCell (lane : InLaneId) (c : Cell) (s : State) : State :=
  match c.kind with
  | .filler => s
  | .response => countUnrouted lane s
  | .control =>
    match matchChannel s lane c.tag with
    | some h => intakeCell h c s
    | none => countUnrouted lane s
  | .media =>
    match matchRoute s lane c.tag with
    | some r => mediaCell r c s
    | none => countUnrouted lane s

/-- A frame on an input lane (R1, R4): no cell unless it is 256 bytes long; each cell is an arrival; a valid one brings
the lane UP and goes to the route stage. -/
def arrival (lane : InLaneId) (bytes : List Byte) (s : State) : State :=
  if bytes.length = Config.cellBytes then
    let t := s.modInLane lane (fun x => { x with lastArrival := some s.now })
    match judge bytes with
    | none => countUnrouted lane t
    | some c => finishFrom t (routeCell lane c (laneBack lane t))
  else s

end Sys2Proof.Machine
end

