-- ==== Sys2Proof/Machine/Timer.lean ====
section
/-!
DEFINITION. The station timer (R185, section 4.3) and the checks that each tick drives.
-/
namespace Sys2Proof.Machine

/-- The clock model's free-run span has reached its limit, and its held mark is clear (R81). -/
def holdPassed (s : State) (v : SvcId) : Bool :=
  match (s.svc v).clock with
  | some m => !(s.svc v).held && decide (Config.holdSpan ≤ (s.now - m.ms).toNat)
  | none => false

/-- A service's backstop deadline is present and has passed (R35). -/
def backstopPassed (s : State) (v : SvcId) : Bool :=
  match (s.svc v).backstop with
  | some d => passed d s.now
  | none => false

/-- A live channel's lease deadline has passed (R148). -/
def leasePassed (s : State) (a : AlertId) : Bool :=
  s.live a && (match (s.alert a).deadline with
    | some d => passed d s.now
    | none => false)

def backstopCheck (v : SvcId) (s : State) : State :=
  if backstopPassed s v then event (backstopStep v) s else s

def holdCheck (v : SvcId) (s : State) : State :=
  if holdPassed s v then s.modSvc v (fun x => { x with held := true }) else s

def leaseCheck (a : AlertId) (s : State) : State := if leasePassed s a then finishFrom s (lapse a s) else s

/-- A step that has fallen due, carried out. -/
def runDue : Due → State → State
  | .debounce n, s => finish (debounceStep n s)
  | .laneLoss lane, s => laneLossStep lane s
  | .backstop v, s => backstopCheck v s
  | .hold v, s => holdCheck v s
  | .lease a, s => leaseCheck a s
  | .window n, s => beginWindow n s
  | .clock c, s => expiryStep c s
  | .pulse c, s => pulseStep c s

/-- A command that names a step: carried out if it has fallen due, and no longer due then; else nothing happens. -/
def takeDue (d : Due) (s : State) : State :=
  if s.isDue d then runDue d { s with due := s.due.erase d } else s

/-- COUNTER_EXPIRY of a counter: a clock event that waits for it is taken, or else a station millisecond that has not
reached it yet (R167). -/
def takeExpiry (c : CounterId) (s : State) : State :=
  if s.isDue (.clock c) then takeDue (.clock c) s else takeDue (.pulse c) s

/-- The steps still due at the end of a millisecond, in the order in which they fell due, each with the expiries that it
makes. -/
def settleDue (s : State) : State := s.due.foldl (fun t d => whole (runDue d) t) { s with due := [] }

/-- The cell positions of a lane that are due and not yet decided, decided in their order (R126). The fuel bounds the
positions of one window. -/
def settlePositions (n : OutLaneId) : Nat → State → State
  | 0, s => s
  | k + 1, s => if positionDue s n then settlePositions n k (positionStep n s) else s

/-- The cell positions of both lanes that the ending millisecond still owes (R126: a position is never left empty). -/
def settleLanes (s : State) : State :=
  (List.finRange 2).foldl (fun t n => settlePositions n (t.outLane n).windowK t) s

/-- What the ending millisecond still owes: its due steps, its cell positions, and the due steps that these leave. -/
def settleMs (s : State) : State := settleDue (settleLanes (settleDue s))

/-- The steps that a tick makes due (R5, R35, R81, R125, R148). -/
def dueAtTick (s : State) : List Due :=
  ((List.finRange 4).filter (lossPassed s)).map Due.laneLoss ++
  ((List.finRange 64).filter (backstopPassed s)).map Due.backstop ++
  ((List.finRange 64).filter (holdPassed s)).map Due.hold ++
  ((List.finRange 8).filter (leasePassed s)).map Due.lease

/-- A rate window begins 10 station milliseconds after the start of the one before (section 4.3). -/
def windowTick (s : State) : State :=
  if Config.windowMs ≤ (s.now - s.windowStart).toNat then
    { s with windowStart := s.now, due := s.due ++ [.window 0, .window 1] }
  else s

/-- What a tick does once the millisecond has been counted: the duty count, the samples of the cue lines, the steps that
fall due, the rate window, the clock events of the station milliseconds, the port's test. DESIGN CHOICE (log entry 48): a
line that takes its level afresh at this tick (R158) does so before the station millisecond reaches a counter that it
gates, where R166 lets either be first. -/
def tickBody (pins : BitVec 8) (s : State) : State :=
  let s := s.modPort (fun p => { p with duty := 0 })
  let s := (List.finRange 8).foldl (sampleLine pins) s
  let s := { s with due := s.due ++ dueAtTick s }
  portTest ((countersOf s .stationMs).foldl clockMs (windowTick s))

/-- One station millisecond tick (R185). -/
def tick (pins : BitVec 8) (s : State) : State :=
  let t := settleMs s
  tickBody pins { t with now := t.now + 1 }

end Sys2Proof.Machine
end

