-- ==== Sys2Proof/Machine/Operands.lean ====
section
/-!
DEFINITION. Entry images (section 10.4, formats of section 10.7): what a READ returns of each table, and what a WRITE
reads of each writable table.
-/
namespace Sys2Proof.Machine

/-! ### Tables and codes -/

/-- The tables in the order of section 10.4. -/
def Table.all : List Table :=
  [.route, .service, .event, .clip, .window, .slot, .alert, .counter, .cueline, .channel, .inlane, .outlane, .store,
    .log, .part]

def Table.ofCode (n : Nat) : Option Table := Table.all[n]?
def Table.code (t : Table) : Nat := Table.all.idxOf t

/-- The number of entries (section 10.4): for LOG the occupancy. -/
def Table.entries (s : State) : Table → Nat
  | .route => 256
  | .service => 64
  | .event => 256
  | .clip => 512
  | .window => 8
  | .slot => 16
  | .alert => 8
  | .counter => 16
  | .cueline => 8
  | .channel => 4
  | .inlane => 4
  | .outlane => 2
  | .store => 1
  | .log => s.log.length
  | .part => 1

/-- The bytes of an entry image (section 10.4); for SLOT those of the fixed part. -/
def Table.imageBytes : Table → Nat
  | .route => 16
  | .service => 80
  | .event => 80
  | .clip => 24
  | .window => 12
  | .slot => 68
  | .alert => 24
  | .counter => 16
  | .cueline => 8
  | .channel => 20
  | .inlane => 8
  | .outlane => 12
  | .store => 8
  | .log => 48
  | .part => 24

/-- The tables that WRITE and PUT apply to (section 10.4). -/
def Table.writable : Table → Bool
  | .slot => false
  | .log => false
  | .part => false
  | _ => true

def RouteState.code : RouteState → Nat
  | .free => 0
  | .active => 1
def LaneState.code : LaneState → Nat
  | .up => 0
  | .down => 1
def SvcState.code : SvcState → Nat
  | .off => 0
  | .network => 1
  | .cueing => 2
  | .inserting => 3
  | .returning => 4
  | .alert => 5
def InsKind.code : InsKind → Nat
  | .ad => 0
  | .loss => 1
  | .alert => 2
def EventState.code : EventState → Nat
  | .free => 0
  | .scheduled => 1
  | .cueing => 2
  | .active => 3
  | .completed => 4
  | .missed => 5
  | .cancelled => 6
  | .aborted => 7
def Trigger.code : Trigger → Nat
  | .time => 0
  | .cue => 1
def Outcome.code : Outcome → Nat
  | .completed => 0
  | .missed => 1
  | .cancelled => 2
  | .aborted => 3
def ClipState.code : ClipState → Nat
  | .free => 0
  | .loaded => 1
def SlotState.code : SlotState → Nat
  | .free => 0
  | .filling => 1
  | .ready => 2
  | .feeding => 3
  | .draining => 4
def FetchEnd.code : FetchEnd → Nat
  | .none => 0
  | .complete => 1
  | .stopped => 2
def Seek.code : Seek → Nat
  | .none => 0
  | .join => 1
  | .slip => 2
def Phase.code : Phase → Nat
  | .idle => 0
  | .requesting => 1
  | .owner => 2
  | .releasing => 3
def AlertState.code : AlertState → Nat
  | .idle => 0
  | .active => 1
  | .stalled => 2
def Direction.code : Direction → Nat
  | .input => 0
  | .output => 1
def EdgeSelect.code : EdgeSelect → Nat
  | .none => 0
  | .rise => 1
  | .fall => 2
  | .both => 3
def Level.code : Level → Nat
  | .high => 0
  | .low => 1
def CounterMode.code : CounterMode → Nat
  | .oneShot => 0
  | .periodic => 1
/-- The owner's form and operand; absent is form 0 (log entry 14). -/
def ownerForm : Option Owner → Form
  | none => ⟨0, 0⟩
  | some (.event e) => ⟨1, e.val⟩
  | some (.alert a) => ⟨2, a.val⟩
  | some (.loss v) => ⟨3, v.val⟩
def Tally.form : Tally → Form
  | .driven0 => ⟨0, 0⟩
  | .driven1 => ⟨1, 0⟩
  | .serviceInserting v => ⟨2, v.val⟩
  | .alertActive a => ⟨3, a.val⟩
  | .anyAlert => ⟨4, 0⟩
def ClockSource.form : ClockSource → Form
  | .stationMs => ⟨0, 0⟩
  | .splicePoints v => ⟨1, v.val⟩
  | .unitStarts v => ⟨2, v.val⟩
  | .edges n => ⟨3, n.val⟩
  | .expiry => ⟨4, 0⟩
def Gate.form : Gate → Form
  | .always => ⟨0, 0⟩
  | .lineHigh n => ⟨1, n.val⟩
  | .lineLow n => ⟨2, n.val⟩
def Target.form : Target → Form
  | .nothing => ⟨0, 0⟩
  | .event e => ⟨1, e.val⟩
  | .alertOn a => ⟨2, a.val⟩
  | .alertRenew a => ⟨3, a.val⟩

/-! ### Encoding by field kind -/

/-- An optional number in `w` bytes: zero bytes when absent. -/
def optBytes (w : Nat) (n : Option Nat) : List Byte := beBytes w (n.getD 0)
def optStamp (x : Option Stamp) : List Byte := beBytes 5 ((x.map BitVec.toNat).getD 0)
def flagBytes (b : Bool) : List Byte := beBytes 1 b.toNat
def maskBytes (w : Nat) (l : List Bool) : List Byte := beBytes w (maskOf l)
def formBytes (f : Form) : List Byte := beBytes 1 f.form ++ beBytes 1 f.operand
/-- A signed number in two's complement of `w` bytes. -/
def signedBytes (w : Nat) (x : Int) : List Byte := beBytes w (BitVec.ofInt (8 * w) x).toNat
def clipListBytes (l : List ClipId) : List Byte :=
  beBytes 1 l.length ++ padTo 16 (l.flatMap (fun c => beBytes 2 c.val))
def pointBytes (p : FetchPoint) : List Byte := beBytes 1 p.listPos ++ beBytes 4 p.pass.toNat ++ beBytes 3 p.cell
def ClipSource.clipIds : ClipSource → List ClipId
  | .list l => l
  | .looped c => [c]

/-! ### Images read -/

def routeImage (x : Route) : List Byte :=
  maskBytes 1 [x.service.isSome] ++ beBytes 1 x.state.code ++ beBytes 1 x.inLane.val ++ beBytes 2 x.inTag.toNat ++
  beBytes 1 x.outLane.val ++ beBytes 2 x.outTag.toNat ++ beBytes 2 x.allotment ++ optBytes 1 (x.service.map Fin.val) ++
  beBytes 1 x.guard.val ++ beBytes 1 x.continuity.toNat ++ beBytes 2 x.overflow

/-- The position of a service's entry in the readers list of the slot it reads (R99, R102). -/
def readerPosition (s : State) (v : SvcId) : Nat :=
  match (s.svc v).slot with
  | some k => (s.slot k).readers.findIdx (fun r => decide (r.svc = v))
  | none => 0

def serviceImage (s : State) (v : SvcId) : List Byte :=
  let x := s.svc v
  maskBytes 1 [x.cfg.lossClip.isSome, x.kind.isSome, x.event.isSome, x.slot.isSome, x.owner.isSome, x.lastPs.isSome,
    x.clock.isSome, x.backstop.isSome] ++
  beBytes 3 x.cfg.unitInt ++ beBytes 2 x.cfg.unitFrac ++ beBytes 4 x.cfg.preroll ++ beBytes 4 x.cfg.exitWindow ++
  beBytes 4 x.cfg.returnWindow ++ beBytes 3 x.cfg.seamTolerance ++ beBytes 3 x.cfg.leadLimit ++
  beBytes 3 x.cfg.lateLimit ++ optBytes 2 (x.cfg.lossClip.map Fin.val) ++ beBytes 1 x.cfg.guard.val ++
  beBytes 1 x.state.code ++ optBytes 1 (x.kind.map InsKind.code) ++ optBytes 1 (x.event.map Fin.val) ++
  optBytes 1 (x.slot.map Fin.val) ++ beBytes 1 (readerPosition s v) ++ optBytes 1 (x.owner.map Fin.val) ++
  optStamp x.lastPs ++ optStamp (x.clock.map ClockModel.rs) ++ optBytes 4 (x.clock.map (fun m => m.ms.toNat)) ++
  beBytes 5 x.base.toNat ++ beBytes 1 x.shedLevel ++ beBytes 1 x.shedPattern ++ signedBytes 5 x.lateness ++
  beBytes 2 x.strayCount ++ beBytes 2 x.slipCount ++ optBytes 4 (x.backstop.map BitVec.toNat) ++
  maskBytes 1 [x.straySeen, x.slipped, x.dark]

def eventImage (x : Event) : List Byte :=
  maskBytes 1 [x.s.isSome, x.duration.isSome, x.outcome.isSome, x.slot.isSome, x.px.isSome, x.tr.isSome,
    x.retPs.isSome, x.seam.isSome] ++
  beBytes 1 x.state.code ++ beBytes 1 x.service.val ++ beBytes 1 x.trigger.code ++ optStamp x.s ++
  optBytes 5 x.duration ++ clipListBytes x.clips ++ maskBytes 1 [x.force, x.rehearse] ++ beBytes 1 x.guard.val ++
  beBytes 5 x.nominal ++ optBytes 1 (x.outcome.map Outcome.code) ++ maskBytes 2 x.flags.bits ++
  optBytes 1 (x.slot.map Fin.val) ++ optStamp x.px ++ optStamp x.tr ++ optStamp x.retPs ++
  signedBytes 5 (x.seam.getD 0) ++ beBytes 4 x.inserted ++ beBytes 4 x.shed

def clipImage (x : Clip) : List Byte :=
  beBytes 1 x.state.code ++ beBytes 1 x.window.val ++ beBytes 4 x.offset ++ beBytes 3 x.length ++
  beBytes 5 x.c0.toNat ++ beBytes 5 x.cEnd.toNat ++ signedBytes 2 x.trim ++ beBytes 1 x.guard.val

def windowImage (x : Window) : List Byte :=
  beBytes 5 x.base.toNat ++ beBytes 4 x.length ++ flagBytes x.enabled ++ beBytes 1 x.guard.val

/-- The fixed part of a SLOT image, with the index of the first reader carried (R180). DESIGN CHOICE (log entry 51): when no
reader is carried, the byte shows the first reader asked for. -/
def slotFixed (x : Slot) (first : Nat) : List Byte :=
  maskBytes 1 [x.exitMs.isSome, x.inFlight.isSome] ++ beBytes 1 x.state.code ++ formBytes (ownerForm x.owner) ++
  clipListBytes x.clips.clipIds ++ pointBytes x.cursor ++ beBytes 5 x.feedStart.toNat ++ beBytes 2 x.frac ++
  beBytes 3 x.unitInt ++ beBytes 2 x.unitFrac ++ beBytes 1 x.fetchEnd.code ++ beBytes 4 x.written.toNat ++
  beBytes 4 x.tail.toNat ++ beBytes 1 x.ring.length ++ beBytes 1 x.readers.length ++ beBytes 1 first ++
  optBytes 4 (x.exitMs.map BitVec.toNat) ++ beBytes 2 x.faults ++ pointBytes (x.inFlight.getD ⟨0, 0, 0⟩)

/-- A readers entry of a SLOT image (section 10.7). -/
def readerImage (s : State) (r : Reader) : List Byte :=
  beBytes 1 r.svc.val ++ beBytes 4 r.pos.toNat ++ beBytes 1 r.seek.code ++ beBytes 5 (s.svc r.svc).base.toNat ++ [0]

def alertImage (x : Alert) : List Byte :=
  maskBytes 1 [x.priority.isSome, x.deadline.isSome, x.slot.isSome] ++ optBytes 1 (x.priority.map Fin.val) ++
  beBytes 8 x.group.toNat ++ beBytes 2 x.clip.val ++ beBytes 1 x.leaseCode.val ++ flagBytes x.masked ++
  beBytes 1 x.state.code ++ optBytes 4 (x.deadline.map BitVec.toNat) ++ optBytes 1 (x.slot.map Fin.val) ++
  beBytes 2 x.faults ++ maskBytes 1 [x.lapsed, x.stallSeen, x.blocked] ++ beBytes 1 x.guard.val

def counterImage (x : Counter) : List Byte :=
  formBytes x.source.form ++ formBytes x.gate.form ++ beBytes 2 x.reload ++ beBytes 2 x.count ++
  beBytes 1 x.mode.code ++ formBytes x.target.form ++ flagBytes x.running ++ beBytes 1 x.guard.val

def cuelineImage (x : CueLine) : List Byte :=
  beBytes 1 x.direction.code ++ beBytes 1 x.edge.code ++ beBytes 1 x.debounce ++ formBytes x.tally.form ++
  beBytes 1 x.sampled.code ++ beBytes 1 x.debounced.code ++ beBytes 1 x.guard.val

/-- A CHANNEL image. DESIGN CHOICE (log entry 47): its response queue occupancy counts the cells built and queued, not
those reserved for control cells taken in. -/
def channelImage (x : Channel) : List Byte :=
  maskBytes 1 [x.cursor.isSome] ++ flagBytes x.enabled ++ beBytes 1 x.inLane.val ++ beBytes 2 x.inTag.toNat ++
  beBytes 1 x.respLane.val ++ beBytes 2 x.respTag.toNat ++ beBytes 1 x.bound.val ++
  optBytes 1 (x.cursor.map (fun c => c.1.code)) ++ optBytes 2 (x.cursor.map (fun c => c.2)) ++
  beBytes 1 x.queue.length ++ beBytes 2 x.overrun ++ beBytes 1 x.continuity.toNat ++ beBytes 1 0

def inlaneImage (x : InLane) : List Byte :=
  beBytes 1 x.state.code ++ beBytes 2 x.timeout ++ beBytes 2 x.unrouted ++ beBytes 1 0

def outlaneImage (s : State) (n : OutLaneId) : List Byte :=
  let x := s.outLane n
  beBytes 2 x.capacity ++ beBytes 2 (allotted s n) ++ beBytes 2 x.fifo.length ++ beBytes 2 x.overflow ++ beBytes 1 0

def storeImage (x : Port) : List Byte :=
  flagBytes x.fast ++ beBytes 1 x.tenureLimit ++ beBytes 1 x.gap ++ beBytes 1 x.dutyLimit ++
  beBytes 1 Config.retryLimit ++ beBytes 1 x.phase.code ++ beBytes 1 0

def logImage (x : LogEntry) : List Byte :=
  padTo 48 (maskBytes 1 [x.s.isSome, x.px.isSome, x.tr.isSome, x.retPs.isSome, x.seam.isSome] ++
    beBytes 1 x.event.val ++ beBytes 1 x.service.val ++ beBytes 1 x.outcome.code ++ maskBytes 2 x.flags.bits ++
    optStamp x.s ++ optStamp x.px ++ optStamp x.tr ++ optStamp x.retPs ++ signedBytes 5 (x.seam.getD 0) ++
    beBytes 4 x.inserted ++ beBytes 4 x.shed ++ beBytes 4 x.completion.toNat)

/-- The slots that are not FREE (R185). -/
def slotsInUse (s : State) : Nat := (s.slots.indices (fun _ x => x.owner.isSome)).length

/-- The PART record (R185). -/
def partImage (s : State) : List Byte :=
  beBytes 2 Config.vendorCode ++ beBytes 2 Config.partCode ++ beBytes 1 Config.revision ++ beBytes 4 s.now.toNat ++
  beBytes 1 (slotsInUse s) ++ maskBytes 1 ((List.finRange 4).map (fun i => decide ((s.inLane i).state = .up))) ++
  maskBytes 1 ((List.finRange 8).map s.live) ++ flagBytes s.storeFaultSeen ++ beBytes 2 s.log.length

/-- An entry's fields by index; nothing at an index the table does not have. -/
def withIndex (n i : Nat) (f : Fin n → List Byte) : List Byte :=
  match index? n i with
  | some k => f k
  | none => []

/-- The image of entry `i` of a table, but for the readers of SLOT; `first` is the first reader carried. -/
def imageOf (s : State) (t : Table) (i first : Nat) : List Byte :=
  padTo t.imageBytes
    (match t with
     | .route => withIndex 256 i (fun k => routeImage (s.route k))
     | .service => withIndex 64 i (serviceImage s)
     | .event => withIndex 256 i (fun k => eventImage (s.event k))
     | .clip => withIndex 512 i (fun k => clipImage (s.clip k))
     | .window => withIndex 8 i (fun k => windowImage (s.window k))
     | .slot => withIndex 16 i (fun k => slotFixed (s.slot k) first)
     | .alert => withIndex 8 i (fun k => alertImage (s.alert k))
     | .counter => withIndex 16 i (fun k => counterImage (s.counter k))
     | .cueline => withIndex 8 i (fun k => cuelineImage (s.line k))
     | .channel => withIndex 4 i (fun k => channelImage (s.channel k))
     | .inlane => withIndex 4 i (fun k => inlaneImage (s.inLane k))
     | .outlane => withIndex 2 i (outlaneImage s)
     | .store => storeImage s.port
     | .log => (s.log[i]?.map logImage).getD []
     | .part => partImage s)

/-! ### Images written -/

/-- A received yes/no byte: 1 is yes, 0 is no, any other is open (log entry 12). -/
def flagOf (n : Nat) : Bool := if n = 1 then true else if n = 0 then false else Config.oddFlag n

/-- A field of `w` bytes that a presence bit governs. -/
def optField (bs : List Byte) (bit at_ w : Nat) : Option Nat :=
  if (field bs 0 1).testBit bit then some (field bs at_ w) else none

/-- A form byte and its operand byte (section 10.7). -/
def formAt (bs : List Byte) (at_ : Nat) : Form := ⟨field bs at_ 1, field bs (at_ + 1) 1⟩

/-- The written state's code and the fields of a ROUTE image. -/
def readRoute (bs : List Byte) : Nat × RouteImg :=
  (field bs 1 1,
    { inLane := field bs 2 1, inTag := field bs 3 2, outLane := field bs 5 1, outTag := field bs 6 2
      allotment := field bs 8 2, service := optField bs 0 10 1, guard := field bs 11 1 })

/-- The written state's code and the configuration of a SERVICE image. -/
def readService (bs : List Byte) : Nat × ServiceImg :=
  (field bs 30 1,
    { unitInt := field bs 1 3, unitFrac := field bs 4 2, preroll := field bs 6 4, exitWindow := field bs 10 4
      returnWindow := field bs 14 4, seamTolerance := field bs 18 3, leadLimit := field bs 21 3
      lateLimit := field bs 24 3, lossClip := optField bs 0 27 2, guard := field bs 29 1 })

/-- An EVENT image as written. DESIGN CHOICE (log entry 44): the places of the clip list beyond its length are ignored on
receipt. -/
def readEvent (bs : List Byte) : EventImg :=
  let n := field bs 14 1
  { state := field bs 1 1, service := field bs 2 1, trigger := field bs 3 1
    s := if (field bs 0 1).testBit 0 then some (stampAt bs 4) else none
    duration := optField bs 1 9 5, clipCount := n
    clips := (List.range (min n 8)).map (fun i => field bs (15 + 2 * i) 2)
    force := (field bs 31 1).testBit 0, rehearse := (field bs 31 1).testBit 1, guard := field bs 32 1 }

def readClip (bs : List Byte) : ClipImg :=
  { state := field bs 0 1, window := field bs 1 1, offset := field bs 2 4, length := field bs 6 3, c0 := stampAt bs 9
    cEnd := stampAt bs 14, trim := (BitVec.ofNat 16 (field bs 19 2)).toInt, guard := field bs 21 1 }

def readWindow (bs : List Byte) : WindowImg :=
  { base := field bs 0 5, length := field bs 5 4, enabled := flagOf (field bs 9 1), guard := field bs 10 1 }

def readAlert (bs : List Byte) : AlertImg :=
  { priority := optField bs 0 1 1, group := BitVec.ofNat 64 (field bs 2 8), clip := field bs 10 2
    leaseCode := field bs 12 1, masked := flagOf (field bs 13 1), guard := field bs 23 1 }

def readCounter (bs : List Byte) : CounterImg :=
  { source := formAt bs 0, gate := formAt bs 2, reload := field bs 4 2, mode := field bs 8 1, target := formAt bs 9
    guard := field bs 12 1 }

def readCueline (bs : List Byte) : CueLineImg :=
  { direction := field bs 0 1, edge := field bs 1 1, debounce := field bs 2 1, tally := formAt bs 3
    guard := field bs 7 1 }

def readChannel (bs : List Byte) : ChannelImg :=
  { enabled := flagOf (field bs 1 1), inLane := field bs 2 1, inTag := field bs 3 2, respLane := field bs 5 1
    respTag := field bs 6 2, bound := field bs 8 1 }

def readStore (bs : List Byte) : StoreImg :=
  { fast := flagOf (field bs 0 1), tenureLimit := field bs 1 1, gap := field bs 2 1, dutyLimit := field bs 3 1 }

end Sys2Proof.Machine
end

