-- ==== Sys2Proof/Machine/Tables.lean ====
section
/-!
DEFINITION. Writing the tables: the checks in their order and the effects of an accepted write, table by table.
Each write answers the state and the result code; a refused write answers the state unchanged.
-/
namespace Sys2Proof.Machine

/-- A write in the table's own form, of the entry that an index names (R180 step 3). -/
def atIndex (n i : Nat) (s : State) (f : Fin n → State × Code) : State × Code :=
  match index? n i with
  | some k => f k
  | none => (s, .badIndex)

/-- The first code of a list of checks, in order; none when every check passes. -/
def firstFailure : List (Bool × Code) → Option Code
  | [] => none
  | (bad, c) :: l => if bad then some c else firstFailure l

/-- A write refused by the first check that fails, else carried out. -/
def checked (checks : List (Bool × Code)) (s : State) (t : State) : State × Code :=
  match firstFailure checks with
  | some c => (s, c)
  | none => (t, .ok)

/-! ### ROUTE (R12-R16) -/

/-- The service's context is not OFF. -/
def notOff (s : State) (v : Option SvcId) : Bool :=
  match v with
  | some v => decide ((s.svc v).state ≠ .off)
  | none => false

/-- The entry is ACTIVE and names a service whose context is not OFF (R12 check 1). -/
def routeInUse (s : State) (x : Route) : Bool := decide (x.state = .active) && notOff s x.service

/-- An optional written index is absent or in range. -/
def optIndexOk (n : Nat) : Option Nat → Bool
  | none => true
  | some k => decide (k < n)

def optIndex (n : Nat) (k : Option Nat) : Option (Fin n) := k.bind (index? n)

/-- Some field of a written ROUTE entry lies outside its range (R12 check 2). -/
def routeOutOfRange (w : RouteImg) : Bool :=
  decide (3 < w.inLane) || decide (4094 < w.inTag) || decide (1 < w.outLane) || decide (4094 < w.outTag) ||
    decide (1024 < w.allotment) || !optIndexOk 64 w.service

/-- The written entry as a record, for fields in their ranges; what a write keeps is taken from the old record (R15). -/
def routeOfImg (w : RouteImg) (cls : Fin 4) (old : Route) : Route :=
  { old with
    state := .active, inLane := Fin.ofNat 4 w.inLane, inTag := BitVec.ofNat 12 w.inTag
    outLane := Fin.ofNat 2 w.outLane, outTag := BitVec.ofNat 12 w.outTag, allotment := w.allotment
    service := optIndex 64 w.service, guard := storedGuard cls w.guard }

/-- The uniqueness law would be broken by the new record at entry `r` (R13). -/
def routeClash (s : State) (r : RouteId) (x : Route) : Bool :=
  !(s.routes.indices (fun i y => decide (i ≠ r ∧ y.state = .active ∧
      ((y.inLane = x.inLane ∧ y.inTag = x.inTag) ∨ (y.outLane = x.outLane ∧ y.outTag = x.outTag) ∨
        (x.service.isSome ∧ y.service = x.service))))).isEmpty ||
    !(s.channels.indices (fun _ c => c.enabled && decide (c.respLane = x.outLane ∧ c.respTag = x.outTag))).isEmpty

/-- The loading limit would be broken (R14). -/
def routeOverload (s : State) (r : RouteId) (x : Route) : Bool :=
  decide ((s.outLane x.outLane).capacity - 1 < x.allotment + allottedBut s x.outLane (some r))

/-- The write begins a new output stream (R15). -/
def newStream (old x : Route) : Bool :=
  decide (old.state = .free) || decide (old.outLane ≠ x.outLane) || decide (old.outTag ≠ x.outTag)

/-- The write changes the entry's binding (R15). -/
def rebinds (old x : Route) : Bool :=
  decide (old.state = .active) &&
    (decide (old.outLane ≠ x.outLane) || decide (old.outTag ≠ x.outTag) || decide (old.inLane ≠ x.inLane) ||
      decide (old.inTag ≠ x.inTag) || decide (old.service ≠ x.service))

/-- The effects of an accepted write of state ACTIVE (R15). -/
def storeRoute (r : RouteId) (x : Route) (s : State) : State :=
  let old := s.route r
  let t := if rebinds old x then purge r old.outLane s else s
  t.modRoute r (fun _ => { x with restartMark := old.restartMark || newStream old x })

/-- A WRITE making a ROUTE entry ACTIVE (R12-R15). -/
def writeRouteActive (cls : Fin 4) (i : Nat) (w : RouteImg) (s : State) : State × Code :=
  atIndex 256 i s fun r =>
    let old := s.route r
    let x := routeOfImg w cls old
    checked
      [(decide (old.state = .active) && !allowed cls old.guard, .guarded),
       (routeInUse s old || notOff s (optIndex 64 w.service), .busy),
       (routeOutOfRange w, .badField),
       (w.service.isNone && decide (w.allotment ≠ 0), .badField),
       (routeClash s r x, .duplicate),
       (routeOverload s r x, .overCapacity)]
      s (storeRoute r x s)

/-- The effects of an accepted write of state FREE (R16). DESIGN CHOICE (log entry 43): the allotment that the route's
service has left in the present window is kept, since it falls only by emission (R125); R130 calls the service without
a route one without remaining allotment. -/
def freeRoute (r : RouteId) (g : Fin 4) (s : State) : State :=
  let old := s.route r
  (purge r old.outLane s).modRoute r (fun _ =>
    { Route.reset with guard := g, continuity := old.continuity, overflow := old.overflow })

/-- A WRITE making a ROUTE entry FREE (R12, R16). -/
def writeRouteFree (cls : Fin 4) (i : Nat) (guard : Nat) (s : State) : State × Code :=
  atIndex 256 i s fun r =>
    let old := s.route r
    checked
      [(decide (old.state = .active) && !allowed cls old.guard, .guarded), (routeInUse s old, .busy)]
      s (freeRoute r (storedGuard cls guard) s)

/-- A WRITE of a ROUTE image by its written state's code; a code of no state is refused as a field out of range, after
the checks that hold for every written state (log entry 15). -/
def writeRoute (cls : Fin 4) (i : Nat) (w : Nat × RouteImg) (s : State) : State × Code :=
  match w.1 with
  | 0 => writeRouteFree cls i w.2.guard s
  | 1 => writeRouteActive cls i w.2 s
  | _ => atIndex 256 i s fun r =>
      checked [(decide ((s.route r).state = .active) && !allowed cls (s.route r).guard, .guarded),
        (routeInUse s (s.route r), .busy), (true, .badField)] s s

/-! ### SERVICE (R21, R22) -/

/-- A refused field of a written SERVICE entry is out of range (R21 check 2). -/
def serviceFieldBad (s : State) (w : ServiceImg) : Bool :=
  decide (w.unitInt = 0) || decide (1048576 < w.unitInt) || decide (65535 < w.unitFrac) ||
    decide (100000000 < w.preroll) ||
    (match w.lossClip with
     | none => false
     | some c =>
       match index? 512 c with
       | none => true
       | some c => decide ((s.clip c).state = .free))

/-- The written configuration as it is stored (R21). -/
def configOfImg (w : ServiceImg) (cls : Fin 4) : SvcConfig :=
  { unitInt := w.unitInt, unitFrac := w.unitFrac, preroll := w.preroll, exitWindow := min w.exitWindow 50000000
    returnWindow := min w.returnWindow 50000000, seamTolerance := min w.seamTolerance 10000000
    leadLimit := min w.leadLimit 5000000, lateLimit := min w.lateLimit 5000000
    lossClip := optIndex 512 w.lossClip, guard := storedGuard cls w.guard }

/-- An event record names the service and is SCHEDULED, CUEING or ACTIVE (R22). -/
def hasLiveEvent (s : State) (v : SvcId) : Bool :=
  !(s.events.indices (fun _ x => x.live && decide (x.service = v))).isEmpty

/-- Enabling (R22). -/
def Service.enable (x : Service) : Service :=
  { x.dropClock with state := .network, lastPs := none, shedLevel := 0, shedPattern := 0, lateness := 0 }

/-- Disabling: the working fields are cleared (R22). -/
def Service.disable (x : Service) : Service :=
  { x with state := .off, returnRef := none, exitPending := false, returnPending := false, returnFlags := .clear,
           networkMark := false, insertMark := false, lossWaiting := false }

/-- The state change of an accepted SERVICE write (R22). -/
def moveService (v : SvcId) (network : Bool) (s : State) : State :=
  match (s.svc v).state, network with
  | .off, true => s.modSvc v Service.enable
  | .network, false => (s.leaveWait (.loss v)).modSvc v Service.disable
  | _, _ => s

/-- A WRITE of a SERVICE entry with a written state's code (R21, R22). -/
def writeService (cls : Fin 4) (i : Nat) (state : Nat) (w : ServiceImg) (s : State) : State × Code :=
  atIndex 64 i s fun v =>
    let x := s.svc v
    let cfg := configOfImg w cls
    checked
      [(!allowed cls x.cfg.guard, .guarded),
       (decide (1 < state), .badField),
       (decide (x.state ≠ .off ∧ x.state ≠ .network), .busy),
       (serviceFieldBad s w, .badField),
       (decide ((cfg.exitWindow ≠ x.cfg.exitWindow ∨ cfg.returnWindow ≠ x.cfg.returnWindow) ∧ s.list v ≠ []), .busy),
       (decide (state = 0 ∧ x.state = .network) && hasLiveEvent s v, .busy)]
      s (moveService v (decide (state = 1)) (s.modSvc v (fun x => { x with cfg := cfg })))

/-! ### EVENT (R45-R48) -/

/-- The clip indices of a written EVENT entry, for indices in range. -/
def writtenClips (w : EventImg) : List ClipId := w.clips.filterMap (index? 512)

/-- Check 2 of R45. -/
def eventFieldBad (s : State) (w : EventImg) : Bool :=
  decide (w.state ≠ 1) || decide (63 < w.service) || decide (1 < w.trigger) ||
    (decide (w.trigger = 0) && w.s.isNone) ||
    (match w.duration with
     | none => false
     | some d => decide (d < 10000 ∨ 2 ^ 34 < d)) ||
    decide (w.clipCount = 0) || w.clips.any (fun c => decide (511 < c)) ||
    (writtenClips w).any (fun c => decide ((s.clip c).state = .free))

/-- The nominal duration of a written event (R47). -/
def nominalOf (s : State) (v : SvcId) (w : EventImg) : Nat :=
  match w.duration with
  | some d => d
  | none => (feedTotal (s.svc v).cfg.unitInt (s.svc v).cfg.unitFrac ((writtenClips w).map s.clip)).toNat

/-- Check 3 of R45. -/
def eventTooLong (s : State) (v : SvcId) (w : EventImg) : Bool :=
  decide (8 < w.clipCount) || (w.duration.isNone && decide (2 ^ 34 < nominalOf s v w))

/-- The offset of a stamp from a service's last network PS (R48). -/
def offsetFrom (l x : Stamp) : Int := signed (x - l)

/-- The length of a nominal span (R48). -/
def spanLength (cfg : SvcConfig) (nominal : Nat) : Int := ((nominal + cfg.exitWindow + cfg.returnWindow : Nat) : Int)

/-- Two intervals [a, a + m) and [b, b + n) have a number in common (R48). -/
def overlap (a m b n : Int) : Bool := decide (a < b + n ∧ b < a + m ∧ 0 < m ∧ 0 < n)

/-- A new span meets the span of an event in the service's list (R48). -/
def spanConflict (s : State) (v : SvcId) (l splice : Stamp) (nominal : Nat) : Bool :=
  (s.list v).any (fun e =>
    match (s.event e).s with
    | none => false
    | some x => overlap (offsetFrom l splice) (spanLength (s.svc v).cfg nominal)
        (offsetFrom l x) (spanLength (s.svc v).cfg (s.event e).nominal))

/-- The timebase checks and the conflict check of a TIME event (R46, R48). -/
def timeChecks (s : State) (v : SvcId) (splice : Stamp) (nominal : Nat) : List (Bool × Code) :=
  match (s.svc v).lastPs with
  | none => [(true, .noTimebase)]
  | some l =>
    [(!after splice (l + ticks (s.svc v).cfg.preroll), .tooLate),
     (decide (2 ^ 34 < (splice - l).toNat), .tooFar),
     (spanConflict s v l splice nominal, .conflict)]

/-- An event put in its place in a schedule list: before the first entry of a greater offset (R48). -/
def insertSpan (s : State) (l splice : Stamp) (e : EventId) : List EventId → List EventId
  | [] => [e]
  | x :: rest =>
    match (s.event x).s with
    | some y => if offsetFrom l splice < offsetFrom l y then e :: x :: rest else x :: insertSpan s l splice e rest
    | none => x :: insertSpan s l splice e rest

/-- The record that an accepted EVENT write stores (R45). -/
def eventOfImg (w : EventImg) (cls : Fin 4) (nominal : Nat) : Event :=
  { Event.reset with
    state := .scheduled, service := Fin.ofNat 64 w.service, trigger := if w.trigger = 0 then .time else .cue
    s := if w.trigger = 0 then w.s else none, duration := w.duration, clips := (writtenClips w), force := w.force
    rehearse := w.rehearse, guard := storedGuard cls w.guard, nominal := nominal }

/-- The effects of an accepted EVENT write: the record, and for a TIME event its place in the list (R45, R48). -/
def storeEvent (e : EventId) (x : Event) (s : State) : State :=
  let t := s.modEvent e (fun _ => x)
  match x.s, (s.svc x.service).lastPs with
  | some splice, some l => t.setList x.service (insertSpan s l splice e (s.list x.service))
  | _, _ => t

/-- A WRITE of an EVENT entry (R45-R48). -/
def writeEvent (cls : Fin 4) (i : Nat) (w : EventImg) (s : State) : State × Code :=
  atIndex 256 i s fun e =>
    let old := s.event e
    let v : SvcId := Fin.ofNat 64 w.service
    let nominal := nominalOf s v w
    checked
      ([(decide (old.state ≠ .free) && !allowed cls old.guard, .guarded),
        (decide (old.state ≠ .free), .busy),
        (eventFieldBad s w, .badField),
        (eventTooLong s v w, .tooLong),
        (decide ((s.svc v).state = .off), .wrongState)] ++
       (if w.trigger = 0 then timeChecks s v (w.s.getD 0) nominal else []))
      s (storeEvent e (eventOfImg w cls nominal) s)

/-! ### CLIP and WINDOW (R85, R88, R89) -/

/-- The clip is the clip source of a slot that is not FREE (R89). -/
def clipRead (s : State) (c : ClipId) : Bool :=
  !(s.slots.indices (fun _ x => x.owner.isSome && x.clips.clipIds.contains c)).isEmpty

/-- The clip record is locked (R89). -/
def clipLocked (s : State) (c : ClipId) : Bool :=
  !(s.events.indices (fun _ x =>
      (decide (x.state = .cueing) || decide (x.state = .active)) && x.clips.contains c)).isEmpty || clipRead s c

/-- Check 2 of R88 for a written state LOADED. -/
def loadedClipBad (s : State) (w : ClipImg) : Bool :=
  match index? 8 w.window with
  | none => true
  | some k =>
    decide (w.offset % 256 ≠ 0) || decide ((s.window k).length ≤ w.offset) || decide (w.length = 0) ||
      decide (2 ^ 23 < w.length) || decide (w.trim < -16384 ∨ 16383 < w.trim) || decide (signed (w.cEnd - w.c0) < 0)

/-- The record that an accepted CLIP write stores (R88). -/
def clipOfImg (w : ClipImg) (cls : Fin 4) : Clip :=
  if w.state = 1 then
    { state := .loaded, window := Fin.ofNat 8 w.window, offset := w.offset, length := w.length, c0 := w.c0
      cEnd := w.cEnd, trim := w.trim, guard := storedGuard cls w.guard }
  else { Clip.reset with guard := storedGuard cls w.guard }

/-- A WRITE of a CLIP entry (R88). -/
def writeClip (cls : Fin 4) (i : Nat) (w : ClipImg) (s : State) : State × Code :=
  atIndex 512 i s fun c =>
    let old := s.clip c
    checked
      [(decide (old.state ≠ .free) && !allowed cls old.guard, .guarded),
       (clipLocked s c, .busy),
       (decide (1 < w.state) || (decide (w.state = 1) && loadedClipBad s w), .badField),
       (decide (w.state = 1) && decide ((s.window (Fin.ofNat 8 w.window)).length < w.length * 256), .tooLong)]
      s (s.setClip c (clipOfImg w cls))

/-- A LOADED clip record names the window and satisfies `p`. -/
def someClipOf (s : State) (k : WindowId) (p : ClipId → Clip → Bool) : Bool :=
  !(s.clips.indices (fun c x => decide (x.state = .loaded) && decide (x.window = k) && p c x)).isEmpty

/-- The length is a power of two from 2^20 to 2^31 (R85). -/
def windowLengthOk (n : Nat) : Bool := (List.range 12).any (fun k => decide (n = 2 ^ (20 + k)))

/-- Check 2 of R85. -/
def windowFieldBad (w : WindowImg) : Bool :=
  !windowLengthOk w.length || decide (w.base % w.length ≠ 0) || decide (2 ^ 36 < w.base + w.length)

/-- A WRITE of a WINDOW entry (R85). -/
def writeWindow (cls : Fin 4) (i : Nat) (w : WindowImg) (s : State) : State × Code :=
  atIndex 8 i s fun k =>
    checked
      [(!allowed cls (s.window k).guard, .guarded),
       (someClipOf s k (fun c _ => clipRead s c), .busy),
       (windowFieldBad w, .badField),
       (someClipOf s k (fun _ x => decide (w.length ≤ x.offset) || decide (w.length < x.length * 256)), .tooLong)]
      s (s.setWindow k
        { base := BitVec.ofNat 36 w.base, length := w.length, enabled := w.enabled, guard := storedGuard cls w.guard })

/-! ### ALERT (R140) -/

/-- Check 2 of R140. The 64-bit group cannot name an index outside 0-63, nor one twice. -/
def alertFieldBad (s : State) (w : AlertImg) : Bool :=
  !optIndexOk 8 w.priority || decide (w.group = 0) ||
    (match index? 512 w.clip with
     | none => true
     | some c => decide ((s.clip c).state = .free)) ||
    decide (7 < w.leaseCode)

/-- Check 3 of R140. -/
def priorityTaken (s : State) (a : AlertId) (w : AlertImg) : Bool :=
  w.priority.isSome &&
    !(s.alerts.indices (fun i x => decide (i ≠ a ∧ x.priority.map Fin.val = w.priority))).isEmpty

/-- A WRITE of an ALERT entry (R140). -/
def writeAlert (cls : Fin 4) (i : Nat) (w : AlertImg) (s : State) : State × Code :=
  atIndex 8 i s fun a =>
    checked
      [(!allowed cls (s.alert a).guard, .guarded),
       (s.live a, .busy),
       (alertFieldBad s w, .badField),
       (priorityTaken s a w, .duplicate)]
      s (s.modAlert a (fun x =>
        { x with priority := optIndex 8 w.priority, group := w.group, clip := Fin.ofNat 512 w.clip
                 leaseCode := Fin.ofNat 8 w.leaseCode, masked := w.masked, guard := storedGuard cls w.guard }))

/-! ### COUNTER (R163) -/

/-- A written clock source; EXPIRY only for counters 1-15 (R163). DESIGN CHOICE (log entry 44): the operand byte of a
form that has no operand is ignored on receipt, whatever it is. -/
def sourceOfForm (c : CounterId) (f : Form) : Option ClockSource :=
  match f.form with
  | 0 => some .stationMs
  | 1 => (index? 64 f.operand).map .splicePoints
  | 2 => (index? 64 f.operand).map .unitStarts
  | 3 => (index? 8 f.operand).map .edges
  | 4 => if c.val = 0 then none else some .expiry
  | _ => none

/-- A written gate (R163). DESIGN CHOICE (log entry 44): the operand byte of OPEN is ignored on receipt. -/
def gateOfForm (f : Form) : Option Gate :=
  match f.form with
  | 0 => some .always
  | 1 => (index? 8 f.operand).map .lineHigh
  | 2 => (index? 8 f.operand).map .lineLow
  | _ => none

/-- A written target (R163). DESIGN CHOICE (log entry 44): the operand byte of NONE is ignored on receipt. -/
def targetOfForm (f : Form) : Option Target :=
  match f.form with
  | 0 => some .nothing
  | 1 => (index? 256 f.operand).map .event
  | 2 => (index? 8 f.operand).map .alertOn
  | 3 => (index? 8 f.operand).map .alertRenew
  | _ => none

/-- Check 2 of R163. -/
def counterFieldBad (c : CounterId) (w : CounterImg) : Bool :=
  (sourceOfForm c w.source).isNone || (gateOfForm w.gate).isNone || decide (w.reload = 0) || decide (65535 < w.reload) ||
    decide (1 < w.mode) || (targetOfForm w.target).isNone

/-- Check 3 of R163: an EVENT target whose record the class may not change. -/
def targetGuarded (s : State) (cls : Fin 4) (w : CounterImg) : Bool :=
  match targetOfForm w.target with
  | some (.event e) => !allowed cls (s.event e).guard
  | _ => false

/-- Check 4 of R163: an alert target without a stored guard of 0. -/
def alertTargetBad (cls : Fin 4) (w : CounterImg) : Bool :=
  match targetOfForm w.target with
  | some (.alertOn _) => decide (storedGuard cls w.guard ≠ 0)
  | some (.alertRenew _) => decide (storedGuard cls w.guard ≠ 0)
  | _ => false

/-- A WRITE of a COUNTER entry (R163). -/
def writeCounter (cls : Fin 4) (i : Nat) (w : CounterImg) (s : State) : State × Code :=
  atIndex 16 i s fun c =>
    checked
      [(!allowed cls (s.counter c).guard, .guarded),
       ((s.counter c).running, .busy),
       (counterFieldBad c w, .badField),
       (targetGuarded s cls w, .guarded),
       (alertTargetBad cls w, .badField)]
      s (s.modCounter c (fun x =>
        { x with source := (sourceOfForm c w.source).getD .stationMs, gate := (gateOfForm w.gate).getD .always
                 reload := w.reload, mode := if w.mode = 0 then .oneShot else .periodic
                 target := (targetOfForm w.target).getD .nothing, guard := storedGuard cls w.guard }))

/-! ### CUELINE (R158) -/

/-- A written tally source (R158). DESIGN CHOICE (log entry 44): the operand byte of DRIVEN 0, DRIVEN 1 and ANY_ALERT is
ignored on receipt. -/
def tallyOfForm (f : Form) : Option Tally :=
  match f.form with
  | 0 => some .driven0
  | 1 => some .driven1
  | 2 => (index? 64 f.operand).map .serviceInserting
  | 3 => (index? 8 f.operand).map .alertActive
  | 4 => some .anyAlert
  | _ => none

def directionOf : Nat → Option Direction
  | 0 => some .input
  | 1 => some .output
  | _ => none

def edgeOf : Nat → Option EdgeSelect
  | 0 => some .none
  | 1 => some .rise
  | 2 => some .fall
  | 3 => some .both
  | _ => none

/-- The change of direction that is part of a CUELINE write (R158). DESIGN CHOICE (log entry 45): from an OUT-to-IN write
to the next tick the sampled level stays the last driven level, as R158 says of the debounced level. -/
def turnLine (n : LineId) (old new : Direction) (s : State) : State :=
  match old, new with
  | .input, .input => s
  | .output, .input => s.modLine n (fun x => { x with pending := 0, reinit := true })
  | _, .output =>
    drive n (tallyLevel s (s.line n).tally) (s.modLine n (fun x => { x with pending := 0, reinit := false }))

/-- A WRITE of a CUELINE entry (R158). -/
def writeCueline (cls : Fin 4) (i : Nat) (w : CueLineImg) (s : State) : State × Code :=
  atIndex 8 i s fun n =>
    match allowed cls (s.line n).guard, directionOf w.direction, edgeOf w.edge, tallyOfForm w.tally with
    | false, _, _, _ => (s, .guarded)
    | true, some d, some e, some t =>
      let u := s.modLine n (fun x =>
        { x with direction := d, edge := e, debounce := min w.debounce 255, tally := t,
                 guard := storedGuard cls w.guard })
      (turnLine n (s.line n).direction d u, .ok)
    | true, _, _, _ => (s, .badField)

/-! ### CHANNEL (R172) -/

def channelOutOfRange (w : ChannelImg) : Bool :=
  decide (3 < w.inLane) || decide (4094 < w.inTag) || decide (1 < w.respLane) || decide (4094 < w.respTag) ||
    decide (3 < w.bound)

/-- The channel record that an accepted write stores; a changed response pair empties the queue (R172). -/
def channelOfImg (w : ChannelImg) (old : Channel) : Channel :=
  let x := { old with
    enabled := w.enabled, inLane := Fin.ofNat 4 w.inLane, inTag := BitVec.ofNat 12 w.inTag
    respLane := Fin.ofNat 2 w.respLane, respTag := BitVec.ofNat 12 w.respTag, bound := Fin.ofNat 4 w.bound }
  if x.respLane = old.respLane ∧ x.respTag = old.respTag then x else { x with queue := [] }

/-- Check 2 of R172. -/
def channelClash (s : State) (h : ChannelId) (x : Channel) : Bool :=
  x.enabled &&
    (!(s.channels.indices (fun i y => decide (i ≠ h) && y.enabled &&
        decide ((y.inLane = x.inLane ∧ y.inTag = x.inTag) ∨ (y.respLane = x.respLane ∧ y.respTag = x.respTag)))).isEmpty
    || !(s.routes.indices (fun _ y =>
        decide (y.state = .active ∧ y.outLane = x.respLane ∧ y.outTag = x.respTag))).isEmpty)

/-- A WRITE of a CHANNEL entry (R172). -/
def writeChannel (cls : Fin 4) (i : Nat) (w : ChannelImg) (s : State) : State × Code :=
  atIndex 4 i s fun h =>
    let x := channelOfImg w (s.channel h)
    checked
      [(decide (cls ≠ 0), .guarded), (channelOutOfRange w, .badField), (channelClash s h x, .duplicate)]
      s (s.modChannel h (fun _ => x))

/-! ### INLANE, OUTLANE, STORE (R6, R108, R124) -/

/-- A WRITE of an INLANE entry (R6). -/
def writeInlane (cls : Fin 4) (i : Nat) (timeout : Nat) (s : State) : State × Code :=
  atIndex 4 i s fun n =>
    checked [(decide (cls ≠ 0), .guarded)] s (s.modInLane n (fun x => { x with timeout := clamp 10 1000 timeout }))

/-- A WRITE of an OUTLANE entry (R124). -/
def writeOutlane (cls : Fin 4) (i : Nat) (capacity : Nat) (s : State) : State × Code :=
  atIndex 2 i s fun n =>
    checked
      [(decide (cls ≠ 0), .guarded), (decide (capacity < 16 ∨ 1024 < capacity), .badField),
       (decide (capacity - 1 < allotted s n), .overCapacity)]
      s (s.modOutLane n (fun x => { x with capacity := capacity }))

/-- A WRITE of the STORE record (R108). -/
def writeStore (cls : Fin 4) (i : Nat) (w : StoreImg) (s : State) : State × Code :=
  atIndex 1 i s fun _ =>
    checked [(decide (cls ≠ 0), .guarded)] s
      (portTest (s.modPort (fun p =>
        { p with fast := w.fast, tenureLimit := clamp 1 8 w.tenureLimit, gap := min w.gap 15
                 dutyLimit := clamp 1 255 w.dutyLimit })))

end Sys2Proof.Machine
end

