-- ==== Sys2Proof/Machine/Restart.lean ====
section
/-!
DEFINITION. RESTART, block by block (R43, R61, R107, R122, R138, R156, R170).
-/
namespace Sys2Proof.Machine

/-- What RESTART clears in every context (R43). -/
def Service.restarted (x : Service) : Service :=
  { x with kind := none, event := none, slot := none, owner := none, backstop := none, returnRef := none,
           exitPending := false, returnPending := false, returnFlags := .clear, lossWaiting := false,
           shedLevel := 0, shedPattern := 0, lateness := 0 }

/-- RESTART on one service context (R43). -/
def restartService (s : State) (v : SvcId) : State :=
  let x := s.svc v
  let y := x.restarted
  match x.state with
  | .off => s.modSvc v (fun _ => y)
  | .network => s.modSvc v (fun _ => { y with dark := x.dark || x.lossWaiting })
  | _ => s.modSvc v (fun _ => { y with state := .network, networkMark := true, dark := x.dark || !s.laneUp v })

/-- RESTART on one event record (R61). -/
def restartEvent (s : State) (e : EventId) : State :=
  match (s.event e).state with
  | .cueing => closeEvent e .cancelled {} s
  | .active => closeEvent e .cancelled fTruncated s
  | _ => s

/-- RESTART on the store port, once every slot is FREE (R122): the current fetch is dropped with its marks. An OWNER port
whose burst or beat is under way stays OWNER until its answer; one between two transfers has none to complete, and its
tenure ends (R120). Whether a transfer is under way after an answer is a free value (log entry 42). -/
def restartStorePort (s : State) : State :=
  let t := s.modPort Port.dropped
  match s.port.fetch with
  | none => t
  | some f =>
    if s.port.phase = .owner ∧ s.port.abandon = false ∧ f.answered then
      let u := { t with draws := s.draws + 1 }
      { u with port := if Config.burstIssued s.draws then u.port else (endTenure u).port }
    else t

/-- RESTART on one alert channel (R156). -/
def Alert.restarted (x : Alert) : Alert := { x with state := .idle, deadline := none, slot := none }

/-- A clock event that waits for its counter. -/
def Due.isClock : Due → Bool
  | .clock _ => true
  | .pulse _ => true
  | _ => false

/-- RESTART on the tables that hold work in flight, once the events are closed (R43, R107, R122, R138, R156, R170). -/
def restartBlocks (s : State) : State :=
  let s := (List.finRange 64).foldl restartService s
  restartStorePort { s with
    slots := Vector.replicate 16 Slot.reset
    waitList := []
    outLanes := s.outLanes.map (fun o => { o with held := Vector.replicate 64 false })
    alerts := s.alerts.map Alert.restarted
    counters := s.counters.map (fun c => { c with running := false })
    due := s.due.filter (fun d => !d.isClock) }

/-- RESTART (R183). -/
def restartPart (s : State) : State :=
  settleTallies (restartBlocks (oneEvent (fun s => (List.finRange 256).foldl restartEvent s) s))

end Sys2Proof.Machine
end

