-- ==== Sys2Proof/Machine/Management.lean ====
section
/-!
DEFINITION. The management unit: the verbs, the records of a control cell and the response (chapter 10).
-/
namespace Sys2Proof.Machine

/-- What a record answers: the state after it, and its result. -/
abbrev Answered := State × Result

def Code.only (c : Code) : Result := ⟨c, 0, []⟩
/-- A write's answer as a record's. -/
def codeOnly (r : State × Code) : Answered := (r.1, r.2.only)
/-- The entry that an index names; BAD_INDEX beyond the table (R180 step 3). -/
def entryAt (n i : Nat) (s : State) (f : Fin n → Answered) : Answered :=
  match index? n i with
  | some k => f k
  | none => (s, Code.badIndex.only)
/-- A record refused with a code, or carried out. -/
def refuseIf (bad : Bool) (c : Code) (s : State) (r : Answered) : Answered := if bad then (s, c.only) else r

/-! ### READ, POINT, PUT, GET, WRITE (R180-R182) -/

/-- A SLOT entry from a first reader on: the fixed part and as many readers as fit, at least one when there is one to
carry (R180). -/
def slotEntry (s : State) (k : SlotId) (first room : Nat) : Option (List Byte) :=
  let rest := (s.slot k).readers.drop first
  let fixed := imageOf s .slot k.val first
  if rest = [] then if 68 ≤ room then some fixed else none
  else if 80 ≤ room then some (fixed ++ (rest.take ((room - 68) / 12)).flatMap (readerImage s))
  else none

/-- The entry image at an index, if it fits (R177, R180). -/
def entryThatFits (s : State) (t : Table) (i first room : Nat) : Option (List Byte) :=
  if t = .slot then
    match index? 16 i with
    | some k => slotEntry s k first room
    | none => none
  else if t.imageBytes ≤ room then some (imageOf s t i 0) else none

/-- Up to `count` entries from index `i` on, while they are in the table and fit: how many, and their bytes (R180). -/
def readEntries (s : State) (t : Table) (first : Nat) : Nat → Nat → Nat → Nat × List Byte
  | 0, _, _ => (0, [])
  | n + 1, i, room =>
    if t.entries s ≤ i then (0, [])
    else
      match entryThatFits s t i first room with
      | none => (0, [])
      | some bs =>
        let (m, rest) := readEntries s t first n (i + 1) (room - bs.length)
        (m + 1, bs ++ rest)

/-- READ of `count` entries; for SLOT a count above 1 is taken as 1 (R180). -/
def readRange (s : State) (t : Table) (i count first room : Nat) : Result :=
  let n := if t = .slot then min count 1 else count
  match readEntries s t first n i room with
  | (0, _) => Code.full.only
  | (m, data) => ⟨if t.entries s < i + n then .badIndex else .ok, m, data⟩

/-- READ (R180). -/
def doRead (x : Ctx) (table i : Nat) (fields : List Byte) (s : State) : Answered :=
  match Table.ofCode table with
  | none => (s, Code.badTable.only)
  | some t =>
    refuseIf (decide (t.entries s ≤ i)) .badIndex s <|
    refuseIf (decide (fields.length ≠ if t = .slot then 2 else 1)) .badField s <|
    refuseIf (decide (field fields 0 1 = 0)) .badField s
      (s, readRange s t i (field fields 0 1) (field fields 1 1) x.room)

/-- POINT (R182). -/
def doPoint (x : Ctx) (table i : Nat) (s : State) : Answered :=
  match Table.ofCode table with
  | none => (s, Code.badTable.only)
  | some t =>
    refuseIf (decide (t.entries s ≤ i)) .badIndex s
      (s.modChannel x.ch (fun c => { c with cursor := some (t, i) }), Code.ok.only)

/-- A write of an entry image into an entry of a writable table (R181). -/
def writeImage (cls : Fin 4) (t : Table) (i : Nat) (bs : List Byte) (s : State) : State × Code :=
  match t with
  | .route => writeRoute cls i (readRoute bs) s
  | .service => writeService cls i (readService bs).1 (readService bs).2 s
  | .event => writeEvent cls i (readEvent bs) s
  | .clip => writeClip cls i (readClip bs) s
  | .window => writeWindow cls i (readWindow bs) s
  | .alert => writeAlert cls i (readAlert bs) s
  | .counter => writeCounter cls i (readCounter bs) s
  | .cueline => writeCueline cls i (readCueline bs) s
  | .channel => writeChannel cls i (readChannel bs) s
  | .inlane => writeInlane cls i (field bs 1 2) s
  | .outlane => writeOutlane cls i (field bs 0 2) s
  | .store => writeStore cls i (readStore bs) s
  | .slot => (s, .badTable)
  | .log => (s, .badTable)
  | .part => (s, .badTable)

/-- WRITE in its general form (R180, R181). -/
def doWrite (x : Ctx) (table i : Nat) (fields : List Byte) (s : State) : Answered :=
  match Table.ofCode table with
  | none => (s, Code.badTable.only)
  | some t =>
    refuseIf (!t.writable) .badTable s <|
    refuseIf (decide (t.entries s ≤ i)) .badIndex s <|
    refuseIf (decide (fields.length ≠ t.imageBytes)) .badField s
      (codeOnly (writeImage x.cls t i fields s))

/-- The channel's cursor moved to the next index (R182). -/
def advanceCursorOf (h : ChannelId) (t : Table) (i : Nat) (s : State) : State :=
  s.modChannel h (fun c => { c with cursor := some (t, i + 1) })

/-- PUT: a WRITE of the entry under the cursor, which advances but for a PUT that is past the end or to a table that is
not written (R182). -/
def doPut (x : Ctx) (fields : List Byte) (s : State) : Answered :=
  match (s.channel x.ch).cursor with
  | none => (s, Code.badIndex.only)
  | some (t, i) =>
    refuseIf (!t.writable) .badTable s <|
    refuseIf (decide (t.entries s ≤ i)) .badIndex s <|
      if fields.length ≠ t.imageBytes then (advanceCursorOf x.ch t i s, Code.badField.only)
      else
        let r := writeImage x.cls t i fields s
        (advanceCursorOf x.ch t i r.1, r.2.only)

/-- GET: a READ of the entry under the cursor, which advances when the entry is returned (R182). -/
def doGet (x : Ctx) (fields : List Byte) (s : State) : Answered :=
  match (s.channel x.ch).cursor with
  | none => (s, Code.badIndex.only)
  | some (t, i) =>
    refuseIf (decide (t.entries s ≤ i)) .badIndex s <|
    refuseIf (decide (fields.length ≠ if t = .slot then 1 else 0)) .badField s <|
      match entryThatFits s t i (field fields 0 1) x.room with
      | none => (s, Code.full.only)
      | some bs => (advanceCursorOf x.ch t i s, ⟨.ok, 1, bs⟩)

/-! ### Actions (R183) -/

/-- SPLICE_NOW (R53). -/
def doSpliceNow (x : Ctx) (i : Nat) (s : State) : Answered :=
  entryAt 256 i s fun e =>
    refuseIf (!allowed x.cls (s.event e).guard) .guarded s <|
    refuseIf (decide ((s.event e).state ≠ .scheduled)) .wrongState s
      (finish (oneEvent (spliceEvent e) s), Code.ok.only)

/-- The effect of CANCEL on a live event (R55). -/
def cancelEvent (e : EventId) (s : State) : State :=
  match (s.event e).state with
  | .scheduled => closeScheduled e .cancelled {} s
  | .cueing => endCueing e .cancelled {} s
  | .active => if (s.event e).outcome = some .cancelled then s else earlyEnd e (some .cancelled) fTruncated s
  | _ => s

/-- CANCEL (R55). -/
def doCancel (x : Ctx) (i : Nat) (s : State) : Answered :=
  entryAt 256 i s fun e =>
    refuseIf (!allowed x.cls (s.event e).guard) .guarded s <|
    refuseIf (!(s.event e).live) .wrongState s
      (event (cancelEvent e) s, Code.ok.only)

/-- ALERT_ON (R142). -/
def doAlertOn (x : Ctx) (i : Nat) (s : State) : Answered :=
  entryAt 8 i s fun a =>
    refuseIf (decide (x.cls ≠ 0)) .guarded s <|
      if s.live a then (renewLease a s, Code.ok.only)
      else
        refuseIf (s.alert a).masked .masked s <|
        refuseIf (s.alert a).priority.isNone .wrongState s
          (finishFrom s (activate a s), Code.ok.only)

/-- ALERT_RENEW (R149). -/
def doAlertRenew (x : Ctx) (i : Nat) (s : State) : Answered :=
  entryAt 8 i s fun a =>
    refuseIf (decide (x.cls ≠ 0)) .guarded s <|
    refuseIf (!s.live a) .wrongState s (renewLease a s, Code.ok.only)

/-- ALERT_OFF (R150). -/
def doAlertOff (x : Ctx) (i : Nat) (s : State) : Answered :=
  entryAt 8 i s fun a =>
    refuseIf (decide (x.cls ≠ 0)) .guarded s <|
    refuseIf (!s.live a) .wrongState s (finishFrom s (endChannel a s), Code.ok.only)

/-- COUNTER_START (R164). -/
def doCounterStart (x : Ctx) (i : Nat) (s : State) : Answered :=
  entryAt 16 i s fun c =>
    refuseIf (!allowed x.cls (s.counter c).guard) .guarded s
      (s.modCounter c (fun y => { y with count := y.reload, running := true }), Code.ok.only)

/-- A stopped counter keeps its count and takes no clock event: those waiting for it are ignored (R164, R165). -/
def stopCounter (c : CounterId) (s : State) : State :=
  (s.modCounter c (fun y => { y with running := false })).dropClocks c

/-- COUNTER_STOP (R164). -/
def doCounterStop (x : Ctx) (i : Nat) (s : State) : Answered :=
  entryAt 16 i s fun c =>
    refuseIf (!allowed x.cls (s.counter c).guard) .guarded s (stopCounter c s, Code.ok.only)

/-- TAKE_LOG (R64, R183). -/
def doTakeLog (x : Ctx) (s : State) : Answered :=
  match s.log with
  | [] => (s, Code.ok.only)
  | y :: l =>
    refuseIf (!allowed x.cls (s.event y.event).guard) .guarded s <|
    refuseIf (decide (x.room < 48)) .full s
      ({ s.modEvent y.event (fun _ => Event.reset) with log := l }, ⟨.ok, 1, logImage y⟩)

/-! ### CLEAR (R184) -/

/-- How many items of a table CLEAR can name (R184). -/
def Table.items : Table → Nat
  | .route => 1
  | .service => 5
  | .alert => 3
  | .inlane => 1
  | .outlane => 1
  | .channel => 1
  | .part => 1
  | _ => 0

/-- The guard that CLEAR is judged against (R178). -/
def guardOf (s : State) (t : Table) (i : Nat) : Fin 4 :=
  match t with
  | .route => (index? 256 i).elim 0 (fun k => (s.route k).guard)
  | .service => (index? 64 i).elim 0 (fun k => (s.svc k).cfg.guard)
  | .alert => (index? 8 i).elim 0 (fun k => (s.alert k).guard)
  | _ => 0

/-- A value cleared if its bit is set. -/
def clearBit {α : Type} (mask bit : Nat) (zero x : α) : α := if mask.testBit bit then zero else x

def Service.cleared (m : Nat) (x : Service) : Service :=
  { x with straySeen := clearBit m 0 false x.straySeen, slipped := clearBit m 1 false x.slipped
           dark := clearBit m 2 false x.dark, strayCount := clearBit m 3 0 x.strayCount
           slipCount := clearBit m 4 0 x.slipCount }

def Alert.cleared (m : Nat) (x : Alert) : Alert :=
  { x with lapsed := clearBit m 0 false x.lapsed, stallSeen := clearBit m 1 false x.stallSeen
           blocked := clearBit m 2 false x.blocked }

/-- An entry changed by index; nothing at an index the table does not have. -/
def modAt (n i : Nat) (s : State) (f : Fin n → State) : State :=
  match index? n i with
  | some k => f k
  | none => s

/-- The named items of an entry cleared (R184). -/
def clearItems (t : Table) (i mask : Nat) (s : State) : State :=
  match t with
  | .route => modAt 256 i s (fun k => s.modRoute k (fun x => { x with overflow := clearBit mask 0 0 x.overflow }))
  | .service => modAt 64 i s (fun k => s.modSvc k (Service.cleared mask))
  | .alert => modAt 8 i s (fun k => s.modAlert k (Alert.cleared mask))
  | .inlane => modAt 4 i s (fun k => s.modInLane k (fun x => { x with unrouted := clearBit mask 0 0 x.unrouted }))
  | .outlane => modAt 2 i s (fun k => s.modOutLane k (fun x => { x with overflow := clearBit mask 0 0 x.overflow }))
  | .channel => modAt 4 i s (fun k => s.modChannel k (fun x => { x with overrun := clearBit mask 0 0 x.overrun }))
  | .part => { s with storeFaultSeen := clearBit mask 0 false s.storeFaultSeen }
  | _ => s

/-- CLEAR (R180, R184). -/
def doClear (x : Ctx) (table i : Nat) (fields : List Byte) (s : State) : Answered :=
  match Table.ofCode table with
  | none => (s, Code.badTable.only)
  | some t =>
    let mask := field fields 0 1
    refuseIf (decide (t.entries s ≤ i)) .badIndex s <|
    refuseIf (decide (fields.length ≠ 1 ∨ t.items = 0)) .badField s <|
    refuseIf (!allowed x.cls (guardOf s t i)) .guarded s <|
    refuseIf (decide (mask = 0 ∨ 2 ^ t.items ≤ mask)) .badField s
      (clearItems t i mask s, Code.ok.only)

/-- RESTART (R183). -/
def doRestart (x : Ctx) (i : Nat) (s : State) : Answered :=
  entryAt 1 i s fun _ => refuseIf (decide (x.cls ≠ 0)) .guarded s (restartPart s, Code.ok.only)

/-! ### Records and the response (R175-R177) -/

/-- The result of a record executed, kept for the response under construction (R175). -/
def record (r : Answered) : State := { r.1 with lastResult := some r.2 }

/-- An action verb of a record: its table, its index, its empty field area, then the action (R180 steps 2-4). -/
def actionRecord (want : Table) (r : RawRecord) (s : State) (act : Answered) : Answered :=
  match Table.ofCode r.table with
  | none => (s, Code.badTable.only)
  | some t =>
    refuseIf (decide (t ≠ want)) .badTable s <|
    refuseIf (decide (t ≠ .log ∧ t.entries s ≤ r.index)) .badIndex s <|
    refuseIf (decide (r.fields ≠ [])) .badField s act

/-- POINT of a record, whose field area is empty (R180 step 4, after the index check). -/
def pointRecord (x : Ctx) (r : RawRecord) (s : State) : Answered :=
  match Table.ofCode r.table with
  | none => (s, Code.badTable.only)
  | some t =>
    refuseIf (decide (t.entries s ≤ r.index)) .badIndex s <|
    refuseIf (decide (r.fields ≠ [])) .badField s (doPoint x r.table r.index s)

/-- One record of a control cell, by its verb code (R180, section 10.4). -/
def runRecord (x : Ctx) (r : RawRecord) (s : State) : Answered :=
  match r.verb with
  | 0 => doRead x r.table r.index r.fields s
  | 1 => doWrite x r.table r.index r.fields s
  | 2 => pointRecord x r s
  | 3 => doPut x r.fields s
  | 4 => doGet x r.fields s
  | 5 => actionRecord .event r s (doSpliceNow x r.index s)
  | 6 => actionRecord .event r s (doCancel x r.index s)
  | 7 => actionRecord .alert r s (doAlertOn x r.index s)
  | 8 => actionRecord .alert r s (doAlertRenew x r.index s)
  | 9 => actionRecord .alert r s (doAlertOff x r.index s)
  | 10 => actionRecord .counter r s (doCounterStart x r.index s)
  | 11 => actionRecord .counter r s (doCounterStop x r.index s)
  | 12 => actionRecord .log r s (doTakeLog x s)
  | 13 => doClear x r.table r.index r.fields s
  | 14 => actionRecord .part r s (doRestart x r.index s)
  | _ => (s, Code.badField.only)

/-- The records of a cell in their order, each with the room that the ones before it left, and each carried out whole,
with the expiries that it makes, before the next begins (R175, R177). -/
def runRecords (ch : ChannelId) (cls : Fin 4) : Nat → List RawRecord → State → State × List Result
  | _, [], s => (s, [])
  | room, r :: l, s =>
    let a := runRecord ⟨ch, cls, room⟩ r s
    let b := runRecords ch cls (room - a.2.data.length) l (settleFresh s (record a))
    (b.1, a.2 :: b.2)

def Code.all : List Code :=
  [.ok, .badTable, .badIndex, .badField, .guarded, .busy, .duplicate, .conflict, .overCapacity, .tooLate, .tooFar,
    .noTimebase, .full, .wrongState, .masked, .tooLong]
/-- A result code's place in the table of section 10.5. -/
def Code.code (c : Code) : Nat := Code.all.idxOf c

/-- One record's part of the response payload (section 10.7). -/
def resultBytes (r : Result) : List Byte :=
  beBytes 1 r.code.code ++ beBytes 1 r.count ++ beBytes 1 r.data.length ++ r.data

/-- The response payload (R176, section 10.7). -/
def responsePayload (seq overrun : Nat) (cls : Fin 4) (results : List Result) : List Byte :=
  beBytes 2 seq ++ beBytes 2 overrun ++ beBytes 1 results.length ++ beBytes 1 cls.val ++ results.flatMap resultBytes

/-- The response built and queued on its channel (R176). -/
def respond (h : ChannelId) (seq : Nat) (cls : Fin 4) (results : List Result) (s : State) : State :=
  s.modChannel h (fun c =>
    { c with
      queue := c.queue ++ [Cell.responseCell c.respTag c.continuity (responsePayload seq c.overrun cls results)]
      continuity := c.continuity + 1 })

/-- The sequence number that a malformed cell is answered with (R174). -/
def malformedSeq (c : Cell) : Nat := if c.length < 2 then 0 else field c.payload 0 2

/-- The oldest control cell taken in is executed and answered; nothing happens when none waits (R174-R176). -/
def executeCell (s : State) : State :=
  match s.intake with
  | [] => s
  | i :: rest =>
    let s := { s with intake := rest }
    match parseControl i.cell with
    | none => respond i.ch (malformedSeq i.cell) i.cls [] s
    | some p =>
      let (t, results) := runRecords i.ch i.cls (234 - 3 * p.records.length) p.records s
      respond i.ch p.seq i.cls results t

end Sys2Proof.Machine
end

