-- ==== Sys2Proof/Machine/ExecRecords.lean ====
section
/-!
DEFINITION. The meanings of the command records (chapter 10). A record leaves its result for the response under
construction in `lastResult` (R175).
-/
namespace Sys2Proof.Machine

/-- CONTROL_CELL_EXECUTE (R174-R176). -/
def execControlCellExecute (s : State) : Host.Outcome State Fault Refusal := .next (executeCell s)

/-- READ (R180). -/
def execRead (x : Ctx) (table index : Nat) (fields : List Byte) (s : State) : Host.Outcome State Fault Refusal :=
  .next (record (doRead x table index fields s))

/-- POINT (R182). -/
def execPoint (x : Ctx) (table index : Nat) (s : State) : Host.Outcome State Fault Refusal :=
  .next (record (doPoint x table index s))

/-- PUT (R182). -/
def execPut (x : Ctx) (fields : List Byte) (s : State) : Host.Outcome State Fault Refusal :=
  .next (record (doPut x fields s))

/-- GET (R182). -/
def execGet (x : Ctx) (fields : List Byte) (s : State) : Host.Outcome State Fault Refusal :=
  .next (record (doGet x fields s))

/-- WRITE (R181). -/
def execWrite (x : Ctx) (table index : Nat) (fields : List Byte) (s : State) : Host.Outcome State Fault Refusal :=
  .next (record (doWrite x table index fields s))

/-- ROUTE_WRITE_ACTIVE (R12-R15). -/
def execRouteWriteActive (x : Ctx) (index : Nat) (img : RouteImg) (s : State) : Host.Outcome State Fault Refusal :=
  .next (record (codeOnly (writeRouteActive x.cls index img s)))

/-- ROUTE_WRITE_FREE (R12, R16). -/
def execRouteWriteFree (x : Ctx) (index : Nat) (guard : Nat) (s : State) : Host.Outcome State Fault Refusal :=
  .next (record (codeOnly (writeRouteFree x.cls index guard s)))

/-- SERVICE_WRITE (R21, R22). -/
def execServiceWrite (x : Ctx) (index state : Nat) (img : ServiceImg) (s : State) : Host.Outcome State Fault Refusal :=
  .next (record (codeOnly (writeService x.cls index state img s)))

/-- SERVICE_ENABLE (R22): the written state is NETWORK. -/
def execServiceEnable (x : Ctx) (index : Nat) (img : ServiceImg) (s : State) : Host.Outcome State Fault Refusal :=
  .next (record (codeOnly (writeService x.cls index SvcState.network.code img s)))

/-- SERVICE_DISABLE (R22): the written state is OFF. -/
def execServiceDisable (x : Ctx) (index : Nat) (img : ServiceImg) (s : State) : Host.Outcome State Fault Refusal :=
  .next (record (codeOnly (writeService x.cls index SvcState.off.code img s)))

/-- EVENT_WRITE (R45-R48). -/
def execEventWrite (x : Ctx) (index : Nat) (img : EventImg) (s : State) : Host.Outcome State Fault Refusal :=
  .next (record (codeOnly (writeEvent x.cls index img s)))

/-- CLIP_WRITE (R88). -/
def execClipWrite (x : Ctx) (index : Nat) (img : ClipImg) (s : State) : Host.Outcome State Fault Refusal :=
  .next (record (codeOnly (writeClip x.cls index img s)))

/-- WINDOW_WRITE (R85). -/
def execWindowWrite (x : Ctx) (index : Nat) (img : WindowImg) (s : State) : Host.Outcome State Fault Refusal :=
  .next (record (codeOnly (writeWindow x.cls index img s)))

/-- ALERT_WRITE (R140). -/
def execAlertWrite (x : Ctx) (index : Nat) (img : AlertImg) (s : State) : Host.Outcome State Fault Refusal :=
  .next (record (codeOnly (writeAlert x.cls index img s)))

/-- COUNTER_WRITE (R163). -/
def execCounterWrite (x : Ctx) (index : Nat) (img : CounterImg) (s : State) : Host.Outcome State Fault Refusal :=
  .next (record (codeOnly (writeCounter x.cls index img s)))

/-- CUELINE_WRITE (R158). -/
def execCuelineWrite (x : Ctx) (index : Nat) (img : CueLineImg) (s : State) : Host.Outcome State Fault Refusal :=
  .next (record (codeOnly (writeCueline x.cls index img s)))

/-- CHANNEL_WRITE (R172). -/
def execChannelWrite (x : Ctx) (index : Nat) (img : ChannelImg) (s : State) : Host.Outcome State Fault Refusal :=
  .next (record (codeOnly (writeChannel x.cls index img s)))

/-- INLANE_WRITE (R6). -/
def execInlaneWrite (x : Ctx) (index timeout : Nat) (s : State) : Host.Outcome State Fault Refusal :=
  .next (record (codeOnly (writeInlane x.cls index timeout s)))

/-- OUTLANE_WRITE (R124). -/
def execOutlaneWrite (x : Ctx) (index capacity : Nat) (s : State) : Host.Outcome State Fault Refusal :=
  .next (record (codeOnly (writeOutlane x.cls index capacity s)))

/-- STORE_WRITE (R108). -/
def execStoreWrite (x : Ctx) (index : Nat) (img : StoreImg) (s : State) : Host.Outcome State Fault Refusal :=
  .next (record (codeOnly (writeStore x.cls index img s)))

/-- SPLICE_NOW (R53). -/
def execSpliceNow (x : Ctx) (index : Nat) (s : State) : Host.Outcome State Fault Refusal :=
  .next (record (doSpliceNow x index s))

/-- CANCEL (R55). -/
def execCancel (x : Ctx) (index : Nat) (s : State) : Host.Outcome State Fault Refusal :=
  .next (record (doCancel x index s))

/-- ALERT_ON (R142). -/
def execAlertOn (x : Ctx) (index : Nat) (s : State) : Host.Outcome State Fault Refusal :=
  .next (record (doAlertOn x index s))

/-- ALERT_RENEW (R149). -/
def execAlertRenew (x : Ctx) (index : Nat) (s : State) : Host.Outcome State Fault Refusal :=
  .next (record (doAlertRenew x index s))

/-- ALERT_OFF (R150). -/
def execAlertOff (x : Ctx) (index : Nat) (s : State) : Host.Outcome State Fault Refusal :=
  .next (record (doAlertOff x index s))

/-- COUNTER_START (R164). -/
def execCounterStart (x : Ctx) (index : Nat) (s : State) : Host.Outcome State Fault Refusal :=
  .next (record (doCounterStart x index s))

/-- COUNTER_STOP (R164). -/
def execCounterStop (x : Ctx) (index : Nat) (s : State) : Host.Outcome State Fault Refusal :=
  .next (record (doCounterStop x index s))

/-- TAKE_LOG (R64, R183): its index is ignored (R180). -/
def execTakeLog (x : Ctx) (_index : Nat) (s : State) : Host.Outcome State Fault Refusal :=
  .next (record (doTakeLog x s))

/-- CLEAR (R184). -/
def execClear (x : Ctx) (table index : Nat) (fields : List Byte) (s : State) : Host.Outcome State Fault Refusal :=
  .next (record (doClear x table index fields s))

/-- RESTART (R183). -/
def execRestart (x : Ctx) (index : Nat) (s : State) : Host.Outcome State Fault Refusal :=
  .next (record (doRestart x index s))

end Sys2Proof.Machine
end

