-- ==== Sys2Proof/Machine/ExecStore.lean ====
section
/-!
DEFINITION. The meanings of the commands that the store bus gives (chapter 6). What a step of the port does to the
feeder, the events and the services is one event of the part: its log entries stand in index order (R63), the tallies
follow it (R161), and a port left IDLE tests for a request (R110).
-/
namespace Sys2Proof.Machine

/-- BUS_GRANT (R111, R112). -/
def execBusGrant (busBusy : Bool) (s : State) : Host.Outcome State Fault Refusal :=
  .next (finish (oneEvent (grantStep busBusy) s))

/-- BURST_ANSWER (R115, R116, R119, R120). -/
def execBurstAnswer (ack error inhibit : Bool) (data : List Byte) (s : State) : Host.Outcome State Fault Refusal :=
  .next (finish (oneEvent (burstAnswerStep ⟨ack, error, inhibit⟩ data) s))

/-- BACK_OFF (R117). -/
def execBackOff (s : State) : Host.Outcome State Fault Refusal := .next (backOffStep s)

/-- GAP_END (R118). -/
def execGapEnd (s : State) : Host.Outcome State Fault Refusal := .next (gapEndStep s)

end Sys2Proof.Machine
end

