-- ==== Sys2Proof/Machine/ExecTimed.lean ====
section
/-!
DEFINITION. The meanings of the commands that the part's pins, lanes and timer give: reset, ticks, cells, and the steps
that fall due.
-/
namespace Sys2Proof.Machine


/-- POWER_ON_RESET (R171 and the reset rule of every block): the initial values, with the straps sampled now. The
commands that wait are not the part's state and go on waiting. -/
def execPowerOnReset (lane : InLaneId) (offset : Fin 8) (s : State) : Host.Outcome State Fault Refusal :=
  .next { State.powerOn lane offset with pending := s.pending }

/-- STATION_TICK (R185). -/
def execStationTick (pins : BitVec 8) (s : State) : Host.Outcome State Fault Refusal := .next (tick pins s)

/-- DEBOUNCE_EDGE (R159, R160). -/
def execDebounceEdge (n : LineId) (s : State) : Host.Outcome State Fault Refusal := .next (takeDue (.debounce n) s)

/-- CELL_ARRIVAL (R1, R4). -/
def execCellArrival (lane : InLaneId) (bytes : List Byte) (s : State) : Host.Outcome State Fault Refusal :=
  .next (arrival lane bytes s)

/-- LANE_LOSS (R5, R37). -/
def execLaneLoss (lane : InLaneId) (s : State) : Host.Outcome State Fault Refusal := .next (takeDue (.laneLoss lane) s)

/-- BACKSTOP (R35). -/
def execBackstop (v : SvcId) (s : State) : Host.Outcome State Fault Refusal := .next (takeDue (.backstop v) s)

/-- CLOCK_MODEL_HOLD (R81). -/
def execClockModelHold (v : SvcId) (s : State) : Host.Outcome State Fault Refusal := .next (takeDue (.hold v) s)

/-- WINDOW_START (R125). -/
def execWindowStart (lane : OutLaneId) (s : State) : Host.Outcome State Fault Refusal :=
  .next (takeDue (.window lane) s)

/-- OUTPUT_POSITION (R126). -/
def execOutputPosition (lane : OutLaneId) (s : State) : Host.Outcome State Fault Refusal :=
  .next (positionStep lane s)

/-- LEASE_LAPSE (R148, R151). -/
def execLeaseLapse (a : AlertId) (s : State) : Host.Outcome State Fault Refusal := .next (takeDue (.lease a) s)

/-- COUNTER_EXPIRY (R167). -/
def execCounterExpiry (c : CounterId) (s : State) : Host.Outcome State Fault Refusal := .next (takeExpiry c s)

end Sys2Proof.Machine
end

