-- ==== Sys2Proof/Machine/Dispatch.lean ====
section
/-!
DEFINITION. The meaning of each command, one arm per row of the opcode table.
-/
namespace Sys2Proof.Machine

def exec (i : Instr) (s : State) : Host.Outcome State Fault Refusal :=
  match i with
  | .powerOnReset lane offset => Sys2Proof.Machine.execPowerOnReset lane offset s
  | .stationTick pins => Sys2Proof.Machine.execStationTick pins s
  | .debounceEdge n => Sys2Proof.Machine.execDebounceEdge n s
  | .cellArrival lane bytes => Sys2Proof.Machine.execCellArrival lane bytes s
  | .laneLoss lane => Sys2Proof.Machine.execLaneLoss lane s
  | .backstop v => Sys2Proof.Machine.execBackstop v s
  | .clockModelHold v => Sys2Proof.Machine.execClockModelHold v s
  | .windowStart lane => Sys2Proof.Machine.execWindowStart lane s
  | .outputPosition lane => Sys2Proof.Machine.execOutputPosition lane s
  | .leaseLapse a => Sys2Proof.Machine.execLeaseLapse a s
  | .counterExpiry c => Sys2Proof.Machine.execCounterExpiry c s
  | .busGrant busBusy => Sys2Proof.Machine.execBusGrant busBusy s
  | .burstAnswer ack error inhibit data => Sys2Proof.Machine.execBurstAnswer ack error inhibit data s
  | .backOff => Sys2Proof.Machine.execBackOff s
  | .gapEnd => Sys2Proof.Machine.execGapEnd s
  | .controlCellExecute => Sys2Proof.Machine.execControlCellExecute s
  | .read x table index fields => Sys2Proof.Machine.execRead x table index fields s
  | .point x table index => Sys2Proof.Machine.execPoint x table index s
  | .put x fields => Sys2Proof.Machine.execPut x fields s
  | .get x fields => Sys2Proof.Machine.execGet x fields s
  | .write x table index fields => Sys2Proof.Machine.execWrite x table index fields s
  | .routeWriteActive x index img => Sys2Proof.Machine.execRouteWriteActive x index img s
  | .routeWriteFree x index guard => Sys2Proof.Machine.execRouteWriteFree x index guard s
  | .serviceWrite x index state img => Sys2Proof.Machine.execServiceWrite x index state img s
  | .serviceEnable x index img => Sys2Proof.Machine.execServiceEnable x index img s
  | .serviceDisable x index img => Sys2Proof.Machine.execServiceDisable x index img s
  | .eventWrite x index img => Sys2Proof.Machine.execEventWrite x index img s
  | .clipWrite x index img => Sys2Proof.Machine.execClipWrite x index img s
  | .windowWrite x index img => Sys2Proof.Machine.execWindowWrite x index img s
  | .alertWrite x index img => Sys2Proof.Machine.execAlertWrite x index img s
  | .counterWrite x index img => Sys2Proof.Machine.execCounterWrite x index img s
  | .cuelineWrite x index img => Sys2Proof.Machine.execCuelineWrite x index img s
  | .channelWrite x index img => Sys2Proof.Machine.execChannelWrite x index img s
  | .inlaneWrite x index timeout => Sys2Proof.Machine.execInlaneWrite x index timeout s
  | .outlaneWrite x index capacity => Sys2Proof.Machine.execOutlaneWrite x index capacity s
  | .storeWrite x index img => Sys2Proof.Machine.execStoreWrite x index img s
  | .spliceNow x index => Sys2Proof.Machine.execSpliceNow x index s
  | .cancel x index => Sys2Proof.Machine.execCancel x index s
  | .alertOn x index => Sys2Proof.Machine.execAlertOn x index s
  | .alertRenew x index => Sys2Proof.Machine.execAlertRenew x index s
  | .alertOff x index => Sys2Proof.Machine.execAlertOff x index s
  | .counterStart x index => Sys2Proof.Machine.execCounterStart x index s
  | .counterStop x index => Sys2Proof.Machine.execCounterStop x index s
  | .takeLog x index => Sys2Proof.Machine.execTakeLog x index s
  | .clear x table index fields => Sys2Proof.Machine.execClear x table index fields s
  | .restart x index => Sys2Proof.Machine.execRestart x index s

end Sys2Proof.Machine
end

