-- ==== Sys2Proof/Safety.lean ====
section
/-!
DEFINITION. The laws that the manual states of the whole part, in the terms that the claims use, and the shorthand of
the claims: the state that a record leaves with its result, and what an event of the part leaves alone.
-/
namespace Sys2Proof.Machine

/-! ### Laws of the tables -/

/-- No two ACTIVE routes share an in pair, an out pair or a service (R13). -/
def RoutesUnique (s : State) : Prop :=
  ∀ i j : RouteId, i ≠ j → (s.route i).state = .active → (s.route j).state = .active →
    ¬((s.route i).inLane = (s.route j).inLane ∧ (s.route i).inTag = (s.route j).inTag) ∧
    ¬((s.route i).outLane = (s.route j).outLane ∧ (s.route i).outTag = (s.route j).outTag) ∧
    ¬((s.route i).service.isSome ∧ (s.route i).service = (s.route j).service)

/-- No ACTIVE route leaves on the response pair of an enabled control channel (R13, R172). -/
def ResponsesApart (s : State) : Prop :=
  ∀ (h : ChannelId) (i : RouteId), (s.channel h).enabled = true → (s.route i).state = .active →
    ¬((s.channel h).respLane = (s.route i).outLane ∧ (s.channel h).respTag = (s.route i).outTag)

/-- No two enabled control channels share a listening pair or a response pair (R172). -/
def ChannelsUnique (s : State) : Prop :=
  ∀ h g : ChannelId, h ≠ g → (s.channel h).enabled = true → (s.channel g).enabled = true →
    ¬((s.channel h).inLane = (s.channel g).inLane ∧ (s.channel h).inTag = (s.channel g).inTag) ∧
    ¬((s.channel h).respLane = (s.channel g).respLane ∧ (s.channel h).respTag = (s.channel g).respTag)

/-- The uniqueness laws of routes and control channels together (R13, R172). -/
def StreamsUnique (s : State) : Prop := RoutesUnique s ∧ ResponsesApart s ∧ ChannelsUnique s

/-- The loading limit: a lane's capacity lies in its range, and the allotments of its ACTIVE routes leave one cell of
each window for responses (R14, R124). -/
def LoadingLimit (s : State) : Prop :=
  ∀ n : OutLaneId, 16 ≤ (s.outLane n).capacity ∧ (s.outLane n).capacity ≤ 1024 ∧
    allotted s n + 1 ≤ (s.outLane n).capacity

/-! ### Bounds of queues -/

/-- A network FIFO holds at most 256 cells (R128). -/
def FifosBounded (s : State) : Prop := ∀ n : OutLaneId, (s.outLane n).fifo.length ≤ 256

/-- A slot's ring and its fetch in flight hold at most 32 cells together (R95, R103). -/
def RingsBounded (s : State) : Prop :=
  ∀ k : SlotId, (s.slot k).ring.length + (s.slot k).inFlight.isSome.toNat ≤ 32

/-- A channel's response cells, those reserved for cells taken in among them, are at most 16 (R173). -/
def QueuesBounded (s : State) : Prop := ∀ h : ChannelId, (s.channel h).queue.length + reserved s h ≤ 16

/-! ### Ranges of settings and counts -/

/-- A RUNNING counter's count lies in 1 to its reload, and a reload in 1 to 65,535 (R162, R163). -/
def CountersInRange (s : State) : Prop :=
  ∀ c : CounterId, 1 ≤ (s.counter c).reload ∧ (s.counter c).reload ≤ 65535 ∧
    ((s.counter c).running = true → 1 ≤ (s.counter c).count ∧ (s.counter c).count ≤ (s.counter c).reload)

/-- Clamped settings lie in their ranges (R6, R21, R108, R158). -/
def SettingsInRange (s : State) : Prop :=
  (∀ i : InLaneId, 10 ≤ (s.inLane i).timeout ∧ (s.inLane i).timeout ≤ 1000) ∧
  (1 ≤ s.port.tenureLimit ∧ s.port.tenureLimit ≤ 8 ∧ s.port.gap ≤ 15 ∧ 1 ≤ s.port.dutyLimit ∧
    s.port.dutyLimit ≤ 255) ∧
  (∀ n : LineId, (s.line n).debounce ≤ 255) ∧
  (∀ v : SvcId, (s.svc v).cfg.exitWindow ≤ 50000000 ∧ (s.svc v).cfg.returnWindow ≤ 50000000 ∧
    (s.svc v).cfg.seamTolerance ≤ 10000000 ∧ (s.svc v).cfg.leadLimit ≤ 5000000 ∧
    (s.svc v).cfg.lateLimit ≤ 5000000)

/-- Every shed level and every pattern counter lies in 0-7 (R134, R136). -/
def ShedLevelsInRange (s : State) : Prop :=
  ∀ v : SvcId, (s.svc v).shedLevel ≤ 7 ∧ (s.svc v).shedPattern ≤ 7

/-- Every saturating count is at most 65,535 (section 4.5). -/
def CountsSaturate (s : State) : Prop :=
  (∀ i : InLaneId, (s.inLane i).unrouted ≤ 65535) ∧ (∀ r : RouteId, (s.route r).overflow ≤ 65535) ∧
  (∀ n : OutLaneId, (s.outLane n).overflow ≤ 65535) ∧ (∀ h : ChannelId, (s.channel h).overrun ≤ 65535) ∧
  (∀ v : SvcId, (s.svc v).strayCount ≤ 65535 ∧ (s.svc v).slipCount ≤ 65535) ∧
  (∀ k : SlotId, (s.slot k).faults ≤ 65535) ∧ (∀ a : AlertId, (s.alert a).faults ≤ 65535)

/-- A channel has a lease deadline and a slot only while it is live (section 8.1): an IDLE channel has
neither. -/
def IdleChannelsBare (s : State) : Prop :=
  ∀ a : AlertId, (s.alert a).state = .idle → (s.alert a).deadline = none ∧ (s.alert a).slot = none

/-- A service has the owner it should have: the live channel of highest priority whose target group contains it, or none
when no live channel's group does (R145). -/
def OwnerRight (s : State) (v : SvcId) : Prop :=
  match (s.svc v).owner with
  | none => ∀ c, s.live c = true → (s.alert c).group.getLsbD v.val = false
  | some c => s.live c = true ∧ (s.alert c).group.getLsbD v.val = true ∧
      ∀ d, s.live d = true → (s.alert d).group.getLsbD v.val = true → (s.alert c).rank ≤ (s.alert d).rank

/-- Every OUT line drives the level of its tally source, and its debounced level is that level (R161). -/
def OutputLinesFollow (s : State) : Prop :=
  ∀ n : LineId, (s.line n).direction = .output →
    (s.line n).sampled = tallyLevel s (s.line n).tally ∧ (s.line n).debounced = tallyLevel s (s.line n).tally

/-- A port that is IDLE has no interrupted fetch to resume, and no cell that it may begin is wanted (R110). -/
def PortAsksWhenWanted (s : State) : Prop :=
  s.port.phase = .idle → s.port.resume = false ∧
    (s.port.duty < s.port.dutyLimit → ∀ k, (s.slot k).wants = false)

/-- What follows each event of the part has been done: the tallies and the port's test (R110, R161). -/
def Settled (s : State) : Prop := OutputLinesFollow s ∧ PortAsksWhenWanted s

/-- A sticky flag set in `s` is set in `t` (section 4.5). -/
def FlagsKept (s t : State) : Prop :=
  (∀ v, ((s.svc v).straySeen = true → (t.svc v).straySeen = true) ∧
    ((s.svc v).slipped = true → (t.svc v).slipped = true) ∧ ((s.svc v).dark = true → (t.svc v).dark = true)) ∧
  (∀ a, ((s.alert a).lapsed = true → (t.alert a).lapsed = true) ∧
    ((s.alert a).stallSeen = true → (t.alert a).stallSeen = true) ∧
    ((s.alert a).blocked = true → (t.alert a).blocked = true)) ∧
  (s.storeFaultSeen = true → t.storeFaultSeen = true)

/-- The commands that may clear a sticky flag: CLEAR, a control cell that may carry a CLEAR, and power-on reset. -/
def mayClear : Instr → Bool
  | .clear _ _ _ _ => true
  | .controlCellExecute => true
  | .powerOnReset _ _ => true
  | _ => false

/-! ### Shorthand of the claims -/

/-- Each answer of a step is a next state that satisfies `P`. -/
def Keeps (P : State → Prop) : Prop := ∀ s t : State, P s → step s = .next t → P t

/-- The state that a record leaves when its only effect is its result. -/
def State.answered (s : State) (r : Result) : State := { s with lastResult := some r }

/-- The result of a record that returns no data. -/
def State.codeAnswered (s : State) (c : Code) : State := s.answered ⟨c, 0, []⟩

/-- `t` is `s` after what follows an event of the part, the tallies with their edges and the port's test: they reach the
cue lines, the counters, the due steps and the port's phase, and nothing else. -/
def Followed (s t : State) : Prop :=
  ∃ l c d ph, t = { s with lines := l, counters := c, due := d, port := { s.port with phase := ph } }

/-- `t` is `s` but for the cue lines, the counters and the due steps. -/
def CueFollowed (s t : State) : Prop := ∃ l c d, t = { s with lines := l, counters := c, due := d }

/-- The loaded tables, the configuration and the counts of the input side are as before. -/
def SameTables (s t : State) : Prop :=
  t.routes = s.routes ∧ t.windows = s.windows ∧ t.clips = s.clips ∧ t.inLanes = s.inLanes

/-- Services, events, schedule lists, log, slots, wait list and alert channels are as before. -/
def SameProgrammes (s t : State) : Prop :=
  t.services = s.services ∧ t.events = s.events ∧ t.sched = s.sched ∧ t.log = s.log ∧ t.slots = s.slots ∧
    t.waitList = s.waitList ∧ t.alerts = s.alerts

/-- Management, and the fields that are the model's own but for the last result, are as before. -/
def SameManagement (s t : State) : Prop :=
  t.channels = s.channels ∧ t.intake = s.intake ∧ t.storeFaultSeen = s.storeFaultSeen ∧ t.pending = s.pending

/-- Every entry of a table but one is as before. -/
def OnlyEntry {α : Type} {n : Nat} (old new : Tbl α n) (i : Fin n) : Prop := ∀ j, j ≠ i → new.get j = old.get j

/-- The configuration that a written SERVICE entry is stored as: the clamped fields at the nearest end of their range. -/
def storedConfig (x : Ctx) (w : ServiceImg) : SvcConfig :=
  { unitInt := w.unitInt, unitFrac := w.unitFrac, preroll := w.preroll, exitWindow := min w.exitWindow 50000000
    returnWindow := min w.returnWindow 50000000, seamTolerance := min w.seamTolerance 10000000
    leadLimit := min w.leadLimit 5000000, lateLimit := min w.lateLimit 5000000
    lossClip := w.lossClip.map (Fin.ofNat 512), guard := max x.cls (Fin.ofNat 4 (min w.guard 3)) }

/-- The clock model after a network cell: its RS and the present millisecond, or as before without an RS. -/
def clockAfter (c : Cell) (before : Option ClockModel) (now : Ms) : Option ClockModel :=
  match c.rs with
  | some rs => some ⟨rs, now⟩
  | none => before

/-- An OWNER port that may stand between two transfers of its cell: a release of the cell's slot may then end the cell, and
the port decides at once what comes next (R112, R120). -/
def BetweenTransfers (s : State) : Prop :=
  s.port.phase = .owner ∧ s.port.abandon = false ∧
    ∃ f, s.port.fetch = some f ∧ (s.port.resume = true ∨ f.answered = true)

/-- A service back in NETWORK without an activity. -/
def backInNetwork (x : Service) : Service :=
  { x with
    state := .network, kind := none, event := none, backstop := none, returnRef := none, exitPending := false
    returnPending := false, returnFlags := ⟨false, false, false⟩ }

/-- The deadline of a return, from `now` for `n` ticks: whole milliseconds rounded up, and one second more. -/
def deadlineFor (now : Ms) (n : Nat) : Ms := now + BitVec.ofNat 32 ((n + 9999) / 10000 + 1000)

/-- Nothing but the release itself follows from the release of slot `k`: it has no reader, no claimant waits, and the port
does not fetch for it. -/
def ReleasedAlone (s : State) (k : SlotId) : Prop :=
  (s.slot k).readers = [] ∧ s.waitList = [] ∧ ∀ f, s.port.fetch = some f → f.slot ≠ k

/-- Slot `k` is owned by an ad event with the given property. -/
def AdSlot (s : State) (P : Event → Prop) (k : SlotId) : Prop :=
  ∃ e, (s.slot k).owner = some (.event e) ∧ P (s.event e)

/-- Slot `k` is owned by a loss fill. -/
def LossSlot (s : State) (k : SlotId) : Prop := ∃ v, (s.slot k).owner = some (.loss v)

/-- The exit of slot `k` is later than that of slot `j`, or as late and `k` is the lower number. -/
def LaterExit (s : State) (k j : SlotId) : Prop :=
  ∃ a b, (s.slot k).exitMs = some a ∧ (s.slot j).exitMs = some b ∧
    ((a ≠ b ∧ (a - b).toNat < 2 ^ 31) ∨ (a = b ∧ k < j))

/-- Slot `k` is the victim of a reclaim for a target group, by the four steps of R105. -/
def IsVictim (s : State) (group : BitVec 64) (k : SlotId) : Prop :=
  let inGroup := AdSlot s (fun x =>
    (x.state = .cueing ∨ x.state = .active) ∧ group.getLsbD x.service.val = true)
  let active := AdSlot s (fun x => x.state = .active)
  let cueing := AdSlot s (fun x => x.state = .cueing)
  (inGroup k ∧ ∀ j, j < k → ¬inGroup j) ∨
  ((∀ j, ¬inGroup j) ∧ LossSlot s k ∧ ∀ j, j < k → ¬LossSlot s j) ∨
  ((∀ j, ¬inGroup j ∧ ¬LossSlot s j) ∧ active k ∧ ∀ j, j ≠ k → active j → LaterExit s k j) ∨
  ((∀ j, ¬inGroup j ∧ ¬LossSlot s j ∧ ¬active j) ∧ cueing k ∧ ∀ j, j < k → ¬cueing j)

/-- The slot of the current fetch, its clip and its cell, in a tenure that ends with this cell and has a gap to wait. -/
def LastOfTenure (s : State) (f : Fetch) (c : ClipId) : Prop :=
  Settled s ∧ s.port.phase = .owner ∧ s.port.fetch = some f ∧ s.port.abandon = false ∧ s.port.resume = false ∧
  s.port.tenureLimit ≤ s.port.tenure ∧ 1 ≤ s.port.gap ∧ (s.slot f.slot).inFlight.isSome ∧
  (s.slot f.slot).fetchEnd = .none ∧
  ((∃ l, (s.slot f.slot).clips = .list l ∧ l[(s.slot f.slot).cursor.listPos]? = some c) ∨
    (s.slot f.slot).clips = .looped c) ∧
  (s.slot f.slot).cursor.cell + 1 < (s.clip c).length

/-- The port after the last cell of a tenure. -/
def releasingPort (p : Port) : Port :=
  { p with phase := .releasing, gapCount := p.gap, fetch := none, buffer := [], abandon := false }

end Sys2Proof.Machine
end

