-- ==== Sys2Proof/Certificates/Slice0/Obligations.lean ====
section
/-!
DEFINITION. The statements for the provers. A statement that a command completes concludes that `exec` answers a next
state, from hypotheses on the state and the operands alone, and says what that state holds and what it leaves.
-/

open Sys2Proof Sys2Proof.Machine

/-! ### The machine -/

/-- A step takes the command at the front of the queue and runs it with the rest of the queue (log entry 4). -/
def Obligations.StepRunsFrontCommand : Prop :=
  ∀ (c : Instr) (rest : List Instr) (s : State),
    step { s with pending := c :: rest } = exec c { s with pending := rest }

/-- With no command waiting, a step is one store clock: it counts a gap of the port down, and leaves any other state as
it is. That an idle step is a store clock is the model's choice (log entry 3); the count is R118's. -/
def Obligations.IdleStepCountsTheGap : Prop :=
  ∀ s : State, s.pending = [] →
    (s.port.phase ≠ .releasing → step s = .next s) ∧
    (s.port.phase = .releasing → 2 ≤ s.port.gapCount →
      step s = .next { s with port := { s.port with gapCount := s.port.gapCount - 1 } }) ∧
    (s.port.phase = .releasing → s.port.gapCount = 1 →
      step s = .next { s with port := { s.port with
        gapCount := 0
        phase := if s.port.resume ∨ (s.port.duty < s.port.dutyLimit ∧ ∃ k, (s.slot k).wants = true) then .requesting
          else .idle } })

/-- After power-on reset every block holds the values that its chapter gives, channel 0 is set up from the straps, and
the commands that wait still wait: that the queue is kept is the model's choice (log entry 38). -/
def Obligations.PowerOnResetSetsEveryBlock : Prop :=
  ∀ (lane : InLaneId) (off : Fin 8) (s : State), ∃ t, exec (.powerOnReset lane off) s = .next t ∧
    t.pending = s.pending ∧ t.now = 0 ∧ t.windowStart = 0 ∧
    (∀ i, t.inLane i = { state := .down, timeout := 100, unrouted := 0, lastArrival := none }) ∧
    (∀ r, t.route r =
      { state := .free, inLane := 0, inTag := 0, outLane := 0, outTag := 0, allotment := 0, service := none,
        guard := 3, continuity := 0, overflow := 0, restartMark := false }) ∧
    (∀ v, t.svc v =
      { cfg := { unitInt := 400000, unitFrac := 0, preroll := 20000000, exitWindow := 5000000,
                 returnWindow := 5000000, seamTolerance := 100000, leadLimit := 2000000, lateLimit := 2000000,
                 lossClip := none, guard := 3 }
        state := .off, kind := none, event := none, slot := none, owner := none, lastPs := none, clock := none,
        held := false, base := 0, shedLevel := 0, shedPattern := 0, lateness := 0, strayCount := 0, slipCount := 0,
        backstop := none, straySeen := false, slipped := false, dark := false, returnRef := none,
        exitPending := false, returnPending := false, returnFlags := ⟨false, false, false⟩, networkMark := false,
        insertMark := false, lossWaiting := false }) ∧
    (∀ e, t.event e =
      { state := .free, service := 0, trigger := .time, s := none, duration := none, clips := [0], force := false,
        rehearse := false, guard := 3, nominal := 0, outcome := none, flags := {}, slot := none, px := none,
        tr := none, retPs := none, seam := none, inserted := 0, shed := 0 }) ∧
    (∀ v, t.list v = []) ∧ t.log = [] ∧
    (∀ w, t.window w = { base := 0, length := 1048576, enabled := false, guard := 3 }) ∧
    (∀ c, t.clip c =
      { state := .free, window := 0, offset := 0, length := 1, c0 := 0, cEnd := 0, trim := 0, guard := 3 }) ∧
    (∀ k, t.slot k =
      { owner := none, clips := .looped 0, cursor := ⟨0, 0, 0⟩, feedStart := 0, frac := 0, unitInt := 400000,
        unitFrac := 0, fetchEnd := .none, written := 0, tail := 0, ring := [], readers := [], exitMs := none,
        faults := 0, inFlight := none }) ∧
    t.waitList = [] ∧
    t.port =
      { fast := false, tenureLimit := 4, gap := 2, dutyLimit := 32, phase := .idle, fetch := none, buffer := [],
        resume := false, abandon := false, tenure := 0, duty := 0, gapCount := 0 } ∧
    (∀ n, (t.outLane n).capacity = 256 ∧ (t.outLane n).overflow = 0 ∧ (t.outLane n).fifo = [] ∧
      (t.outLane n).windowK = 256 ∧ (∀ v, (t.outLane n).remaining.get v = 0 ∧ (t.outLane n).held.get v = false) ∧
      (t.outLane n).reserveUsed = false ∧ (t.outLane n).insRot = none ∧ (t.outLane n).respRot = none) ∧
    (∀ a, t.alert a =
      { priority := some a, group := 1, clip := 0, leaseCode := 2, masked := true, state := .idle, deadline := none,
        slot := none, faults := 0, lapsed := false, stallSeen := false, blocked := false, guard := 3 }) ∧
    (∀ n, (t.line n).direction = .input ∧ (t.line n).edge = .none ∧ (t.line n).debounce = 10 ∧
      (t.line n).tally = .driven1 ∧ (t.line n).sampled = .high ∧ (t.line n).debounced = .high ∧
      (t.line n).guard = 3 ∧ (t.line n).pending = 0) ∧
    (∀ c, t.counter c =
      { source := .stationMs, gate := .always, reload := 1, count := 0, mode := .oneShot, target := .nothing,
        running := false, guard := 3 }) ∧
    t.channel 0 =
      { enabled := true, inLane := lane, inTag := BitVec.ofNat 12 (4080 + off.val), respLane := 0,
        respTag := if off.val = 7 then 4094 else BitVec.ofNat 12 (4088 + off.val), bound := 0, cursor := none,
        queue := [], overrun := 0, continuity := 0 } ∧
    (∀ h, h ≠ 0 → t.channel h =
      { enabled := false, inLane := 0, inTag := 0, respLane := 0, respTag := 0, bound := 3, cursor := none,
        queue := [], overrun := 0, continuity := 0 }) ∧
    t.intake = [] ∧ t.storeFaultSeen = false

/-- The laws that the statements below keep hold in the state after reset, whatever the straps say. -/
def Obligations.LawsHoldAtReset : Prop :=
  ∀ (lane : InLaneId) (off : Fin 8), let s := State.powerOn lane off
    (StreamsUnique s ∧ LoadingLimit s ∧ FifosBounded s ∧ RingsBounded s ∧ QueuesBounded s) ∧
    CountersInRange s ∧ SettingsInRange s ∧ ShedLevelsInRange s ∧ CountsSaturate s ∧ IdleChannelsBare s ∧
    Settled s

/-! ### Laws that every step keeps -/

/-- Every step keeps the uniqueness laws of routes and control channels. -/
def Obligations.StreamsStayUnique : Prop := Keeps StreamsUnique
/-- Every step keeps the loading limit of both output lanes. -/
def Obligations.LoadingLimitStays : Prop := Keeps LoadingLimit
/-- Every step keeps the bounds of the network FIFOs, of a slot's ring together with its fetch in flight, and of a
channel's response cells, reservations counted. -/
def Obligations.BuffersStayBounded : Prop := Keeps FifosBounded ∧ Keeps RingsBounded ∧ Keeps QueuesBounded
/-- Every step keeps the clamped settings, the shed levels, the saturating counts and a RUNNING counter's count in their
ranges, and leaves an IDLE alert channel without a deadline and a slot. -/
def Obligations.ValuesStayInRange : Prop :=
  Keeps SettingsInRange ∧ Keeps ShedLevelsInRange ∧ Keeps CountsSaturate ∧ Keeps CountersInRange ∧
    Keeps IdleChannelsBare
/-- Every step leaves every OUT line at the level of its tally source, and a port that is IDLE without a reason to
request. -/
def Obligations.TalliesAndPortStaySettled : Prop := Keeps OutputLinesFollow ∧ Keeps PortAsksWhenWanted

/-! ### Cells, lanes and routes -/

/-- The bytes of a valid cell are judged to be that cell, whatever the bytes of its absent stamps. -/
def Obligations.CellBytesReadBack : Prop :=
  ∀ c : Cell, c.payload.length = 240 → c.length ≤ 240 → (c.kind = .filler ↔ c.tag = 4095) → judge c.bytes = some c

/-- Of 256 bytes, those whose kind is no kind, whose payload length exceeds 240, or whose tag 4095 and kind FILLER do
not go together are invalid, and all others are valid. Kind, length and tag stand where section 10.7 puts them. -/
def Obligations.HeadersAreJudged : Prop :=
  ∀ bs : List Byte, bs.length = 256 →
    let kind := (bs.getD 2 0).toNat / 32
    let length := (bs.getD 14 0).toNat
    let tag := (bs.getD 0 0).toNat * 16 + (bs.getD 1 0).toNat / 16
    (judge bs = none ↔ 3 < kind ∨ 240 < length ∨ (kind = 1 ∧ tag ≠ 4095) ∨ (tag = 4095 ∧ kind ≠ 1))

/-- A frame that is not 256 bytes long changes nothing; an invalid cell of 256 bytes is an arrival and is counted
unrouted, and changes nothing else, the lane's state included. -/
def Obligations.UnusableFramesOnlyCount : Prop :=
  ∀ (lane : InLaneId) (bs : List Byte) (s : State),
    (bs.length ≠ 256 → exec (.cellArrival lane bs) s = .next s) ∧
    (bs.length = 256 → judge bs = none →
      exec (.cellArrival lane bs) s = .next (s.modInLane lane (fun x =>
        { x with lastArrival := some s.now, unrouted := min (x.unrouted + 1) 65535 })))

/-- A valid MEDIA cell on an UP lane that matches the one ACTIVE route of its lane and tag, a route of no service or of
an OFF service, goes to the end of the FIFO of the route's out lane as it arrived, with its route, if the FIFO holds
fewer than 256 cells; if the FIFO is full the cell is lost and the route's and the lane's overflow counts rise. The
arrival is noted either way, and no service, event, slot, alert channel, clip, window or control channel changes. -/
def Obligations.ForwardedCellJoinsFifo : Prop :=
  ∀ (lane : InLaneId) (bs : List Byte) (c : Cell) (r : RouteId) (s : State),
    bs.length = 256 → judge bs = some c → c.kind = .media → (s.inLane lane).state = .up →
    (s.route r).state = .active → (s.route r).inLane = lane → (s.route r).inTag = c.tag → RoutesUnique s →
    (∀ v, (s.route r).service = some v → (s.svc v).state = .off) →
    ∃ t, exec (.cellArrival lane bs) s = .next t ∧
      t.inLanes = s.inLanes.put lane { s.inLane lane with lastArrival := some s.now } ∧
      SameProgrammes s t ∧ SameManagement s t ∧ t.clips = s.clips ∧ t.windows = s.windows ∧ t.now = s.now ∧
      ((s.outLane (s.route r).outLane).fifo.length < 256 →
        t.routes = s.routes ∧
        t.outLanes = s.outLanes.put (s.route r).outLane
          { s.outLane (s.route r).outLane with fifo := (s.outLane (s.route r).outLane).fifo ++ [⟨r, c⟩] }) ∧
      (256 ≤ (s.outLane (s.route r).outLane).fifo.length →
        t.routes = s.routes.put r { s.route r with overflow := min ((s.route r).overflow + 1) 65535 } ∧
        t.outLanes = s.outLanes.put (s.route r).outLane
          { s.outLane (s.route r).outLane with
            overflow := min ((s.outLane (s.route r).outLane).overflow + 1) 65535 })

/-- A cell that no table matches: a MEDIA cell without an ACTIVE route on its lane and tag, a CONTROL cell without an
enabled channel, and any RESPONSE cell are counted unrouted; a FILLER cell is dropped uncounted. On an UP lane nothing
else changes but the arrival, and what follows any event of the part: the cue lines, the counters, the due steps and the
port's phase. -/
def Obligations.UnmatchedCellsAreCounted : Prop :=
  ∀ (lane : InLaneId) (bs : List Byte) (c : Cell) (s : State),
    bs.length = 256 → judge bs = some c → (s.inLane lane).state = .up →
    (c.kind = .media → ∀ r, ¬((s.route r).state = .active ∧ (s.route r).inLane = lane ∧ (s.route r).inTag = c.tag)) →
    (c.kind = .control →
      ∀ h, ¬((s.channel h).enabled = true ∧ (s.channel h).inLane = lane ∧ (s.channel h).inTag = c.tag)) →
    ∃ t, exec (.cellArrival lane bs) s = .next t ∧ Followed
      { s with
        inLanes := s.inLanes.put lane { s.inLane lane with
          lastArrival := some s.now
          unrouted :=
            if c.kind = .filler then (s.inLane lane).unrouted else min ((s.inLane lane).unrouted + 1) 65535 } } t

/-- A control cell on the pair of the one enabled channel that listens there is taken in, with the greater of the
channel's bound and the class it requests, while the channel's response cells, reservations counted, are fewer than
16; else it is lost and the overrun count rises. -/
def Obligations.ControlCellIsTakenIn : Prop :=
  ∀ (lane : InLaneId) (bs : List Byte) (c : Cell) (h : ChannelId) (p : ControlCell) (s : State),
    bs.length = 256 → judge bs = some c → c.kind = .control → parseControl c = some p →
    (s.inLane lane).state = .up → (s.channel h).enabled = true → (s.channel h).inLane = lane →
    (s.channel h).inTag = c.tag → ChannelsUnique s →
    ∃ t, exec (.cellArrival lane bs) s = .next t ∧ SameProgrammes s t ∧ t.routes = s.routes ∧
      t.outLanes = s.outLanes ∧
      ((s.channel h).queue.length + reserved s h < 16 →
        t.channels = s.channels ∧ t.intake = s.intake ++ [⟨h, max (s.channel h).bound p.cls, c⟩]) ∧
      (16 ≤ (s.channel h).queue.length + reserved s h →
        t.intake = s.intake ∧
        t.channels = s.channels.put h { s.channel h with overrun := min ((s.channel h).overrun + 1) 65535 })

/-- An UP lane whose deadline, the last arrival plus the loss timeout, has passed goes DOWN when its loss is taken, and
nothing else of the lanes changes. Of a lane that carries one service: a NETWORK one without a loss clip goes dark; with
a LOADED loss clip it starts loss fill from the lowest FREE slot, or, dark, joins the wait list behind the other loss
fills when no slot is FREE; a CUEING one has its event MISSED with SOURCE_LOST and its slot released. A valid cell is an
arrival and brings a DOWN lane UP: a service in loss fill goes RETURNING with its backstop set, and a waiting loss claim
is given up. -/
def Obligations.LaneLossTakesTheLaneDown : Prop :=
  ∀ (lane : InLaneId) (s : State),
    (∀ m : Ms, Due.laneLoss lane ∈ s.due → (s.inLane lane).state = .up → (s.inLane lane).lastArrival = some m →
      (s.now - (m + BitVec.ofNat 32 (s.inLane lane).timeout)).toNat < 2 ^ 31 →
      let down : Tbl InLane 4 := s.inLanes.put lane { s.inLane lane with state := .down }
      ∃ t, exec (.laneLoss lane) s = .next t ∧ t.inLanes = down ∧
        t.routes = s.routes ∧ t.clips = s.clips ∧ t.windows = s.windows ∧ t.channels = s.channels ∧
        ∀ v, s.servicesOn lane = [v] →
          ((s.svc v).state = .network → (s.svc v).lossWaiting = false →
            ((s.svc v).cfg.lossClip = none →
              t.services = s.services.put v { s.svc v with dark := true } ∧ t.events = s.events ∧
                t.slots = s.slots) ∧
            (∀ c, (s.svc v).cfg.lossClip = some c → (s.clip c).state = .loaded →
              (∀ k, (s.slot k).owner = none → (∀ j, j < k → (s.slot j).owner.isSome) → Followed
                { s with
                  inLanes := down
                  services := s.services.put v { s.svc v with
                    state := .inserting, kind := some .loss, insertMark := true, lossWaiting := false }
                  slots := s.slots.put k { Slot.reset with
                    owner := some (.loss v), clips := .looped c, unitInt := (s.svc v).cfg.unitInt
                    unitFrac := (s.svc v).cfg.unitFrac } } t) ∧
              (∀ fills rest : List Claimant, (∀ k, (s.slot k).owner.isSome) → s.waitList = fills ++ rest →
                (∀ x ∈ fills, ∃ w, x = .loss w) → (∀ w, rest.head? ≠ some (.loss w)) → Followed
                { s with
                  inLanes := down, waitList := fills ++ .loss v :: rest
                  services := s.services.put v { s.svc v with lossWaiting := true, dark := true } } t))) ∧
          (∀ e k, (s.svc v).state = .cueing → (s.svc v).event = some e → (s.event e).state = .cueing →
            (s.event e).service = v → (s.event e).slot = some k → ReleasedAlone s k →
            (s.svc v).cfg.lossClip = none →
            let closed : Event := { s.event e with
              state := .missed, outcome := some .missed, slot := none
              flags := { (s.event e).flags with sourceLost := true } }
            Followed
              { s with
                inLanes := down, events := s.events.put e closed
                log := s.log ++ [entryOf e closed .missed s.now], slots := s.slots.put k Slot.reset
                services := s.services.put v { backInNetwork (s.svc v) with dark := true } } t)) ∧
    (∀ (bs : List Byte) (c : Cell), bs.length = 256 → judge bs = some c → (s.inLane lane).state = .down →
      ∃ t, exec (.cellArrival lane bs) s = .next t ∧ (t.inLane lane).state = .up ∧
        (t.inLane lane).lastArrival = some s.now ∧
        ∀ v, c.kind = .filler → s.servicesOn lane = [v] →
          let up : Tbl InLane 4 :=
            s.inLanes.put lane { s.inLane lane with state := .up, lastArrival := some s.now }
          ((s.svc v).state = .inserting → (s.svc v).kind = some .loss → Followed
            { s with
              inLanes := up
              services := s.services.put v { s.svc v with
                state := .returning, returnRef := none
                backstop := some (deadlineFor s.now (s.svc v).cfg.returnWindow) } } t) ∧
          ((s.svc v).state = .network → (s.svc v).lossWaiting = true → Followed
            { s with
              inLanes := up, waitList := s.waitList.filter (fun x => decide (x ≠ .loss v))
              services := s.services.put v { s.svc v with lossWaiting := false } } t))

/-! ### Routes -/

/-- A write that makes a ROUTE entry ACTIVE and passes the checks stores the binding, sets the restart mark for a new
output stream, and removes the route's queued cells from the old FIFO when it rebinds an ACTIVE entry. The out
continuity count and the overflow count stay, and nothing else changes. -/
def Obligations.RouteWriteBinds : Prop :=
  ∀ (x : Ctx) (r : RouteId) (w : RouteImg) (s : State) (old new : Route),
    old = s.route r →
    new = { old with
      state := .active, inLane := Fin.ofNat 4 w.inLane, inTag := BitVec.ofNat 12 w.inTag
      outLane := Fin.ofNat 2 w.outLane, outTag := BitVec.ofNat 12 w.outTag, allotment := w.allotment
      service := w.service.map (Fin.ofNat 64), guard := max x.cls (Fin.ofNat 4 (min w.guard 3))
      restartMark := old.restartMark ||
        decide (old.state = .free ∨ old.outLane ≠ Fin.ofNat 2 w.outLane ∨ old.outTag ≠ BitVec.ofNat 12 w.outTag) } →
    (old.state = .free ∨ x.cls ≤ old.guard) →
    (old.state = .active → ∀ v, old.service = some v → (s.svc v).state = .off) →
    (∀ v, new.service = some v → (s.svc v).state = .off) →
    w.inLane ≤ 3 → w.inTag ≤ 4094 → w.outLane ≤ 1 → w.outTag ≤ 4094 → w.allotment ≤ 1024 →
    (∀ v, w.service = some v → v < 64) → (w.service = none → w.allotment = 0) →
    (∀ j, j ≠ r → (s.route j).state = .active →
      ¬((s.route j).inLane = new.inLane ∧ (s.route j).inTag = new.inTag) ∧
      ¬((s.route j).outLane = new.outLane ∧ (s.route j).outTag = new.outTag) ∧
      ¬(new.service.isSome ∧ (s.route j).service = new.service)) →
    (∀ h, (s.channel h).enabled = true →
      ¬((s.channel h).respLane = new.outLane ∧ (s.channel h).respTag = new.outTag)) →
    w.allotment + allottedBut s new.outLane (some r) + 1 ≤ (s.outLane new.outLane).capacity →
    exec (.routeWriteActive x r.val w) s = .next
      ({ s with
        routes := s.routes.put r new
        outLanes := if old.state = RouteState.active ∧ (old.outLane ≠ new.outLane ∨ old.outTag ≠ new.outTag ∨
            old.inLane ≠ new.inLane ∨ old.inTag ≠ new.inTag ∨ old.service ≠ new.service) then
          s.outLanes.put old.outLane { s.outLane old.outLane with
            fifo := (s.outLane old.outLane).fifo.filter (fun q => decide (q.route ≠ r)) }
          else s.outLanes }.codeAnswered .ok)

/-- A write of state FREE to an entry that no service in use names empties the entry, keeps its two counts, removes its
queued cells and changes nothing else. That the lane keeps what is left of the service's allotment in this window, where
R130 says that a service without a route has none, is the model's choice (log entry 43). -/
def Obligations.RouteFreeUnbinds : Prop :=
  ∀ (x : Ctx) (r : RouteId) (g : Nat) (s : State),
    ((s.route r).state = .free ∨ x.cls ≤ (s.route r).guard) →
    ((s.route r).state = .active → ∀ v, (s.route r).service = some v → (s.svc v).state = .off) →
    exec (.routeWriteFree x r.val g) s = .next
      ({ s with
        routes := s.routes.put r
          { state := .free, inLane := 0, inTag := 0, outLane := 0, outTag := 0, allotment := 0, service := none,
            guard := max x.cls (Fin.ofNat 4 (min g 3)), continuity := (s.route r).continuity,
            overflow := (s.route r).overflow, restartMark := false }
        outLanes := s.outLanes.put (s.route r).outLane { s.outLane (s.route r).outLane with
          fifo := (s.outLane (s.route r).outLane).fifo.filter (fun q => decide (q.route ≠ r)) } }.codeAnswered .ok)

/-! ### Services -/

/-- A SERVICE write that passes the checks stores the configuration; written NETWORK it enables an OFF context, written
OFF it disables a NETWORK context, and else it changes the configuration alone. SERVICE_ENABLE and SERVICE_DISABLE are
the writes of those two states. -/
def Obligations.ServiceWriteStores : Prop :=
  ∀ (x : Ctx) (v : SvcId) (w : ServiceImg) (s : State) (old : Service),
    old = s.svc v → x.cls ≤ old.cfg.guard → (old.state = .off ∨ old.state = .network) →
    1 ≤ w.unitInt → w.unitInt ≤ 1048576 → w.unitFrac ≤ 65535 → w.preroll ≤ 100000000 →
    (∀ c, w.lossClip = some c → c < 512 ∧ (s.clip (Fin.ofNat 512 c)).state = .loaded) →
    (s.list v = [] ∨ ((storedConfig x w).exitWindow = old.cfg.exitWindow ∧
      (storedConfig x w).returnWindow = old.cfg.returnWindow)) →
    let kept : Service := { old with cfg := storedConfig x w }
    let entered : Service :=
      if old.state = .off then
        { kept with
          state := .network, lastPs := none, clock := none, held := false, shedLevel := 0, shedPattern := 0
          lateness := 0 }
      else kept
    let enabled : State := { s with services := s.services.put v entered }
    let disabled : State :=
      if old.state = .network then
        { s with
          waitList := s.waitList.filter (fun c => decide (c ≠ .loss v))
          services := s.services.put v
            { kept with state := .off, returnRef := none, exitPending := false, returnPending := false,
                        returnFlags := ⟨false, false, false⟩, networkMark := false, insertMark := false,
                        lossWaiting := false } }
      else { s with services := s.services.put v kept }
    exec (.serviceWrite x v.val 1 w) s = .next (enabled.codeAnswered .ok) ∧
    exec (.serviceEnable x v.val w) s = .next (enabled.codeAnswered .ok) ∧
    ((old.state = .network → ∀ e, (s.event e).service = v → (s.event e).live = false) →
      exec (.serviceWrite x v.val 0 w) s = .next (disabled.codeAnswered .ok) ∧
      exec (.serviceDisable x v.val w) s = .next (disabled.codeAnswered .ok))

/-- A network cell of a NETWORK service with an empty schedule list is tracked and forwarded: its stamps become the last
network PS and the clock model, which a timeline break first makes absent, and it joins the FIFO with DISCONTINUITY if
it arrived so or the network mark is set, which the FIFO's taking it clears. With one event in the list, its PS judges it.
Before the due window, S less the preroll to S plus the exit window, the event waits. In the window it goes CUEING with
its service, in the lowest FREE slot or at the tail of the wait list, with NO_SLOT if the cell is a splice point from S
on; it goes MISSED with STORE_FAULT if a clip of it is FREE; it waits while the service is ALERT or INSERTING before its
return target. From the window's end on it is MISSED, with the flag of the service's state. At the PS of a timeline break
an S that is not at most 2^34 ticks ahead is MISSED with TIMELINE_BREAK. A cell of an ALERT or INSERTING service is not
forwarded. -/
def Obligations.NetworkCellIsTrackedAndForwarded : Prop :=
  ∀ (lane : InLaneId) (bs : List Byte) (c : Cell) (r : RouteId) (v : SvcId) (s : State) (old : Service),
    bs.length = 256 → judge bs = some c → c.kind = .media → (s.inLane lane).state = .up →
    (s.route r).state = .active → (s.route r).inLane = lane → (s.route r).inTag = c.tag → RoutesUnique s →
    (s.route r).service = some v → old = s.svc v → (s.outLane (s.route r).outLane).fifo.length < 256 →
    let tracked : Service := { old with
      lastPs := c.ps.or (if c.discontinuity then none else old.lastPs)
      clock := clockAfter c (if c.discontinuity then none else old.clock) s.now
      held := if c.rs.isSome ∨ c.discontinuity then false else old.held }
    let forwarded : Tbl OutLane 2 := s.outLanes.put (s.route r).outLane { s.outLane (s.route r).outLane with
      fifo := (s.outLane (s.route r).outLane).fifo ++
        [⟨r, { c with discontinuity := c.discontinuity || old.networkMark }⟩] }
    (old.state = .network → s.list v = [] →
      ∃ t, exec (.cellArrival lane bs) s = .next t ∧
        t.services = s.services.put v { tracked with networkMark := false } ∧ t.outLanes = forwarded ∧
        t.events = s.events ∧ t.slots = s.slots ∧ t.routes = s.routes ∧ t.log = s.log ∧ t.alerts = s.alerts) ∧
    (∀ (e : EventId) (x : Event) (p splice : Stamp), s.list v = [e] → x = s.event e → x.state = .scheduled →
      x.service = v → x.s = some splice → c.ps = some p →
      let start : Stamp := splice - BitVec.ofNat 36 old.cfg.preroll
      let close : Stamp := splice + BitVec.ofNat 36 old.cfg.exitWindow
      let inWindow : Prop := (p - start).toNat < 2 ^ 35 ∧ (close - p).toNat < 2 ^ 35 ∧ p ≠ close
      let arrived : State := { s with
        inLanes := s.inLanes.put lane { s.inLane lane with lastArrival := some s.now } }
      let sent : Service → State := fun y => { arrived with
        services := s.services.put v { y with networkMark := false }, outLanes := forwarded }
      let missed : OutFlags → State → State := fun f u =>
        let closed : Event := { x with
          state := .missed, outcome := some .missed, flags := x.flags.union f, slot := none }
        { u with
          events := s.events.put e closed, sched := s.sched.put v []
          log := s.log ++ [entryOf e closed .missed s.now] }
      let leaves : State → Prop := fun u => ∃ t, exec (.cellArrival lane bs) s = .next t ∧ Followed u t
      (old.state = .network → c.discontinuity = false → old.lastPs.isSome →
        (¬inWindow → 2 ^ 35 ≤ (p - close).toNat → leaves (sent tracked)) ∧
        (inWindow → (∀ i ∈ x.clips, (s.clip i).state = .loaded) →
          let cueing : Service := { tracked with state := .cueing, event := some e, exitPending := false }
          (∀ k, (s.slot k).owner = none → (∀ j, j < k → (s.slot j).owner.isSome) → leaves { sent cueing with
            events := s.events.put e { x with state := .cueing, slot := some k }, sched := s.sched.put v []
            slots := s.slots.put k { Slot.reset with
              owner := some (.event e), clips := .list x.clips, unitInt := old.cfg.unitInt
              unitFrac := old.cfg.unitFrac } }) ∧
          ((∀ k, (s.slot k).owner.isSome) → x.slot = none →
            let deferred : Bool := c.unitStart && c.splicePoint && decide ((p - splice).toNat < 2 ^ 35)
            leaves { sent cueing with
              events := s.events.put e { x with
                state := .cueing, flags := { x.flags with noSlot := x.flags.noSlot || deferred } }
              sched := s.sched.put v [], waitList := s.waitList ++ [.event e] })) ∧
        (inWindow → (∃ i ∈ x.clips, (s.clip i).state = .free) → leaves (missed { storeFault := true } (sent tracked))) ∧
        ((p - close).toNat < 2 ^ 35 → leaves (missed {} (sent tracked)))) ∧
      (old.state = .network → c.discontinuity = true →
        ((splice - p).toNat = 0 ∨ 2 ^ 34 < (splice - p).toNat) →
        leaves (missed { timelineBreak := true } (sent tracked))) ∧
      (old.state = .alert ∨ (old.state = .inserting ∧ ∀ g target, old.event = some g → (s.event g).tr = some target →
          2 ^ 35 ≤ (p - target).toNat) →
        c.discontinuity = false → old.lastPs.isSome →
        let kept : State := { arrived with services := s.services.put v tracked }
        (inWindow → (∀ i ∈ x.clips, (s.clip i).state = .loaded) → leaves kept) ∧
        (inWindow → (∃ i ∈ x.clips, (s.clip i).state = .free) → leaves (missed { storeFault := true } kept)) ∧
        ((p - close).toNat < 2 ^ 35 → leaves (missed
          (if old.state = .alert then { alert := true } else { busyService := true }) kept))))

/-- At the first splice point at or after S that finds the event's slot with 8 ring cells, a CUEING service leaves the
network: it reads the ring from its tail with reader base P_x, the cell's PS; D is the event's duration or the feed
total of its clips; the event is ACTIVE with T_r = P_x + D; the backstop runs; and the cell is not forwarded. With exit
pending set the next network cell is the exit: P_x is the end of the exit window, FORCED_EXIT is noted and the insert
mark set. A rehearsal closes at its exit point as COMPLETED with REHEARSED, and frees its slot. At the end of the exit
window exit pending is set if force is set and the ring holds 8 cells; else the event is MISSED and its slot freed. In
these last three cases the cell is forwarded. -/
def Obligations.ExitPointSwitchesToTheRing : Prop :=
  ∀ (lane : InLaneId) (bs : List Byte) (c : Cell) (r : RouteId) (v : SvcId) (e : EventId) (k : SlotId)
    (splice : Stamp) (d : Nat) (s : State) (old : Service),
    bs.length = 256 → judge bs = some c → c.kind = .media → (s.inLane lane).state = .up →
    (s.route r).state = .active → (s.route r).inLane = lane → (s.route r).inTag = c.tag → RoutesUnique s →
    (s.route r).service = some v → old = s.svc v → old.state = .cueing → old.event = some e →
    s.list v = [] → (s.event e).s = some splice → (s.event e).slot = some k → c.discontinuity = false →
    ((s.event e).duration = some d ∨ ((s.event e).duration = none ∧
      d = (feedTotal (s.slot k).unitInt (s.slot k).unitFrac ((s.event e).clips.map s.clip)).toNat)) →
    let tracked : Service := { old with
      lastPs := c.ps.or old.lastPs, clock := clockAfter c old.clock s.now
      held := if c.rs.isSome then false else old.held }
    let leaves : Stamp → Bool → Prop := fun px forced => ∃ t, exec (.cellArrival lane bs) s = .next t ∧
      t.services = s.services.put v { tracked with
        state := .inserting, kind := some .ad, slot := some k, base := px, exitPending := false
        insertMark := old.insertMark || forced, backstop := some (deadlineFor s.now (d + old.cfg.returnWindow))
        shedLevel := 0, shedPattern := 0, lateness := 0 } ∧
      t.events = s.events.put e { s.event e with
        state := .active, outcome := some .completed, px := some px, tr := some (px + BitVec.ofNat 36 d)
        flags := { (s.event e).flags with forcedExit := (s.event e).flags.forcedExit || forced } } ∧
      t.slots = s.slots.put k { s.slot k with
        readers := (s.slot k).readers ++ [⟨v, (s.slot k).tail, .none⟩], exitMs := some s.now } ∧
      t.outLanes = s.outLanes ∧ t.log = s.log
    let forwarded : Service → State → Prop := fun x t =>
      exec (.cellArrival lane bs) s = .next t ∧
      t.services = s.services.put v { x with networkMark := false } ∧
      t.outLanes = s.outLanes.put (s.route r).outLane { s.outLane (s.route r).outLane with
        fifo := (s.outLane (s.route r).outLane).fifo ++ [⟨r, { c with discontinuity := old.networkMark }⟩] }
    let ends : Event → Outcome → Prop := fun closed o => ∃ t, forwarded (backInNetwork tracked) t ∧
      t.events = s.events.put e closed ∧ t.log = s.log ++ [entryOf e closed o s.now] ∧
      t.slots = s.slots.put k Slot.reset
    let exitPoint : Stamp → Prop := fun p =>
      old.exitPending = false ∧ 8 ≤ (s.slot k).ring.length ∧ c.unitStart = true ∧ c.splicePoint = true ∧
        c.ps = some p ∧ (p - splice).toNat < 2 ^ 35
    let windowEnd : Stamp := splice + BitVec.ofNat 36 old.cfg.exitWindow
    (∀ p, exitPoint p → (s.event e).rehearse = false → leaves p false) ∧
    (old.exitPending = true → (s.event e).rehearse = false → leaves windowEnd true) ∧
    (ReleasedAlone s k → (s.outLane (s.route r).outLane).fifo.length < 256 →
      (∀ p, exitPoint p → (s.event e).rehearse = true → (s.event e).state = .cueing → ends { s.event e with
        state := .completed, outcome := some .completed, slot := none, px := some p
        tr := some (p + BitVec.ofNat 36 d), flags := { (s.event e).flags with rehearsed := true } } .completed) ∧
      (∀ p, old.exitPending = false → c.ps = some p → (p - windowEnd).toNat < 2 ^ 35 →
        ((s.slot k).ring.length < 8 ∨ (c.splicePoint = false ∧ (s.event e).force = false)) →
        (s.event e).state = .cueing → (s.event e).service = v → ends { s.event e with
          state := .missed, outcome := some .missed, slot := none } .missed)) ∧
    (∀ p, old.exitPending = false → c.ps = some p → (p - windowEnd).toNat < 2 ^ 35 → c.splicePoint = false →
      (s.event e).force = true → 8 ≤ (s.slot k).ring.length →
      (s.outLane (s.route r).outLane).fifo.length < 256 →
      ∃ t, forwarded { tracked with exitPending := true } t ∧ t.events = s.events ∧ t.slots = s.slots ∧
        t.log = s.log)

/-- At a splice point at or after the return reference, a RETURNING service of a break goes back to the network: the
return PS and the seam error are recorded, the event is closed with its pending outcome and logged, the slot is FREE
again, and the cell is forwarded with DISCONTINUITY if the seam error exceeds the tolerance, the return was cut short,
forced or broken, the slot had not finished, or the mark was set. -/
def Obligations.ReturnPointSwitchesBack : Prop :=
  ∀ (lane : InLaneId) (bs : List Byte) (c : Cell) (r : RouteId) (v : SvcId) (e : EventId) (k : SlotId)
    (p ref target : Stamp) (o : Outcome) (s : State) (old : Service) (reader : Reader),
    bs.length = 256 → judge bs = some c → c.kind = .media → (s.inLane lane).state = .up →
    (s.route r).state = .active → (s.route r).inLane = lane → (s.route r).inTag = c.tag → RoutesUnique s →
    (s.route r).service = some v → old = s.svc v → old.state = .returning → old.kind = some .ad →
    old.event = some e → old.returnPending = false → old.returnRef = some ref → old.slot = some k →
    s.list v = [] → s.waitList = [] → s.port.fetch = none →
    (s.event e).state = .active → (s.event e).slot = some k → (s.event e).tr = some target →
    (s.event e).outcome = some o → (s.slot k).readers = [reader] → reader.svc = v →
    (s.outLane (s.route r).outLane).fifo.length < 256 →
    c.unitStart = true → c.splicePoint = true → c.ps = some p → (p - ref).toNat < 2 ^ 35 →
    c.discontinuity = false →
    let finished := decide ((s.slot k).state = .draining ∧ (s.slot k).ring = [])
    let seam := (p - target).toInt
    let closed : Event := { s.event e with
      state := o.state, retPs := some p, seam := some seam, slot := none
      flags := { (s.event e).flags with truncated := (s.event e).flags.truncated || !finished } }
    ∃ t, exec (.cellArrival lane bs) s = .next t ∧
      t.services = s.services.put v { old with
        lastPs := some p, clock := clockAfter c old.clock s.now, held := if c.rs.isSome then false else old.held
        state := .network, kind := none, event := none, slot := none, backstop := none, returnRef := none
        exitPending := false, returnFlags := ⟨false, false, false⟩, networkMark := false } ∧
      t.events = s.events.put e closed ∧
      t.log = s.log ++ [entryOf e closed o s.now] ∧
      t.slots = s.slots.put k Slot.reset ∧
      t.outLanes = s.outLanes.put (s.route r).outLane { s.outLane (s.route r).outLane with
        fifo := (s.outLane (s.route r).outLane).fifo ++ [⟨r, { c with
          discontinuity := decide ((old.cfg.seamTolerance : Int) < |seam|) || old.returnFlags.truncated ||
            old.returnFlags.forced || old.returnFlags.brk || !finished || old.networkMark }⟩] }

/-- A passed backstop of an INSERTING or RETURNING service on an UP lane without a pending return forces the return: the
next network cell will be the return point, FORCED is noted, and the deadline is set anew. FORCED_RETURN is noted in the
event of a break, whose slot stops fetching if the service was INSERTING: R35 does not name the slot, and its stop is the
model's reading of R97 (section 5.5, log entry 19). With the lane DOWN or a return pending already, the service gives up
its return: a break's event is closed with SOURCE_LOST, and with TRUNCATED if the slot had not finished, its slot is
released, and the service goes NETWORK, with the network mark set if its lane is UP; if its lane is DOWN it goes dark
without a loss clip, and with a LOADED one begins loss fill, here in the slot just released. A loss fill's return gives
up its slot too, and a return after an alert has none to give up. -/
def Obligations.BackstopForcesTheReturn : Prop :=
  ∀ (v : SvcId) (d : Ms) (s : State) (old : Service),
    old = s.svc v → Due.backstop v ∈ s.due → old.backstop = some d → (s.now - d).toNat < 2 ^ 31 →
    (old.state = .inserting ∨ old.state = .returning) →
    (s.laneUp v = true → old.returnPending = false →
      ∃ t, exec (.backstop v) s = .next t ∧
        t.services = s.services.put v { old with
          state := .returning, returnPending := true, returnFlags := { old.returnFlags with forced := true }
          backstop := some (s.now + BitVec.ofNat 32 ((old.cfg.returnWindow + 9999) / 10000 + 1000)) } ∧
        t.routes = s.routes ∧ t.outLanes = s.outLanes ∧ t.log = s.log ∧
        (∀ e, old.kind = some .ad → old.event = some e →
          t.events = s.events.put e
            { s.event e with flags := { (s.event e).flags with forcedReturn := true } } ∧
          ∀ k, (s.event e).slot = some k → old.state = .inserting → (s.slot k).fetchEnd = .none →
            t.slots = s.slots.put k { s.slot k with fetchEnd := .stopped }) ∧
        (old.kind ≠ some .ad → t.events = s.events ∧ t.slots = s.slots)) ∧
    (s.laneUp v = false ∨ old.returnPending = true →
      let leaves : State → Prop := fun u => ∃ t, exec (.backstop v) s = .next t ∧ Followed u t
      let given : Service := { backInNetwork old with slot := none }
      let marked : Service := { given with networkMark := true }
      let darkened : Service := { given with dark := true }
      (∀ e k o reader, old.kind = some .ad → old.event = some e → (s.event e).state = .active →
        (s.event e).outcome = some o → (s.event e).slot = some k → (s.slot k).readers = [reader] → reader.svc = v →
        s.waitList = [] → (∀ f, s.port.fetch = some f → f.slot ≠ k) →
        let finished := decide ((s.slot k).state = .draining ∧ (s.slot k).ring = [])
        let closed : Event := { s.event e with
          state := o.state, slot := none
          flags := { (s.event e).flags with
            sourceLost := true, truncated := (s.event e).flags.truncated || !finished } }
        let ended : Slot → Service → State := fun y x => { s with
          events := s.events.put e closed, log := s.log ++ [entryOf e closed o s.now]
          slots := s.slots.put k y, services := s.services.put v x }
        (s.laneUp v = true → leaves (ended Slot.reset marked)) ∧
        (s.laneUp v = false → old.cfg.lossClip = none → leaves (ended Slot.reset darkened)) ∧
        (∀ c, s.laneUp v = false → old.cfg.lossClip = some c → (s.clip c).state = .loaded →
          (∀ j, j < k → (s.slot j).owner.isSome) → leaves (ended
            { Slot.reset with
              owner := some (.loss v), clips := .looped c, unitInt := old.cfg.unitInt, unitFrac := old.cfg.unitFrac }
            { given with state := .inserting, kind := some .loss, insertMark := true, lossWaiting := false }))) ∧
      (∀ k reader, old.kind = some .loss → (s.slot k).owner = some (.loss v) →
        (∀ j, j ≠ k → (s.slot j).owner ≠ some (.loss v)) → (s.slot k).readers = [reader] → reader.svc = v →
        s.waitList = [] → (∀ f, s.port.fetch = some f → f.slot ≠ k) → s.laneUp v = true →
        leaves { s with slots := s.slots.put k Slot.reset, services := s.services.put v marked }) ∧
      (old.kind = some .alert → old.slot = none →
        (s.laneUp v = true → leaves { s with services := s.services.put v marked }) ∧
        (s.laneUp v = false → old.cfg.lossClip = none → leaves { s with services := s.services.put v darkened })))

/-- A clock model whose free-run span has reached 1,048,576 ms is held, and its projection stands from then on at
RS_last plus 10,485,760,000 ticks. -/
def Obligations.ClockModelIsHeld : Prop :=
  ∀ (v : SvcId) (m : ClockModel) (s : State),
    Due.hold v ∈ s.due → (s.svc v).clock = some m → (s.svc v).held = false → 1048576 ≤ (s.now - m.ms).toNat →
    ∃ t, exec (.clockModelHold v) s = .next t ∧
      t = { s with due := s.due.erase (.hold v), services := s.services.put v { s.svc v with held := true } } ∧
      ∀ now, projection (t.svc v) now = some (m.rs + 10485760000)

/-! ### Ticks, lines and counters -/

/-- A tick that finds nothing owed of the ending millisecond adds one to the station count, clears the duty count,
begins a rate window 10 ms after the last, and makes exactly those checks due whose deadline or span has come. A RUNNING
counter of STATION_MS whose gate admits, by the level of its line after the tick's samples, counts down by one; the event
that would bring it to 0 waits for COUNTER_EXPIRY, and so does one that falls together with a due edge of the gate's line.
Every other counter keeps its values. Beside the cue unit and the port's phase nothing else changes. What is owed, what
waits, and when, is the model's (log entries 2, 17, 48 and 49). -/
def Obligations.TickCountsTheMillisecond : Prop :=
  ∀ (pins : BitVec 8) (s : State), s.due = [] → (∀ n, positionDue s n = false) →
    ∃ t, exec (.stationTick pins) s = .next t ∧
      (∃ l c d ph, t = { s with
        now := s.now + 1
        windowStart := if 10 ≤ (s.now + 1 - s.windowStart).toNat then s.now + 1 else s.windowStart
        lines := l, counters := c, due := d, port := { s.port with duty := 0, phase := ph } }) ∧
      (∀ lane, Due.laneLoss lane ∈ t.due ↔ (s.inLane lane).state = .up ∧ ∃ m, (s.inLane lane).lastArrival = some m ∧
        (s.now + 1 - (m + BitVec.ofNat 32 (s.inLane lane).timeout)).toNat < 2 ^ 31) ∧
      (∀ v, Due.backstop v ∈ t.due ↔ ∃ d, (s.svc v).backstop = some d ∧ (s.now + 1 - d).toNat < 2 ^ 31) ∧
      (∀ v, Due.hold v ∈ t.due ↔
        (s.svc v).held = false ∧ ∃ m, (s.svc v).clock = some m ∧ 1048576 ≤ (s.now + 1 - m.ms).toNat) ∧
      (∀ a, Due.lease a ∈ t.due ↔
        (s.alert a).state ≠ .idle ∧ ∃ d, (s.alert a).deadline = some d ∧ (s.now + 1 - d).toNat < 2 ^ 31) ∧
      (∀ n, Due.window n ∈ t.due ↔ 10 ≤ (s.now + 1 - s.windowStart).toNat) ∧
      ∀ (c : CounterId) (x : Counter), x = s.counter c →
        (x.source ≠ .stationMs ∨ x.running = false → t.counter c = x) ∧
        (x.source = .stationMs → x.running = true →
          let edgeDue : Prop := ∃ n, (x.gate = .lineHigh n ∨ x.gate = .lineLow n) ∧ Due.debounce n ∈ t.due
          let admits : Prop := match x.gate with
            | .always => True
            | .lineHigh n => (t.line n).debounced = .high
            | .lineLow n => (t.line n).debounced = .low
          (edgeDue → t.counter c = x ∧ Due.pulse c ∈ t.due) ∧
          (¬edgeDue → ¬admits → t.counter c = x) ∧
          (¬edgeDue → admits → 1 < x.count → t.counter c = { x with count := x.count - 1 }) ∧
          (¬edgeDue → admits → x.count ≤ 1 → t.counter c = x ∧ Due.clock c ∈ t.due))

/-- At the same tick each IN line samples its pin: the sample clears the pending count if it is the debounced level,
raises it while it is below the debounce, and makes the edge due once it is not; a line just set IN takes the sample
without an edge; an OUT line is not sampled. That the debounced level stays at the tick, and its edge falls due for a
later DEBOUNCE_EDGE, is the model's choice (log entry 2), and so is what the ending millisecond owes (log entry 17). -/
def Obligations.TickSamplesTheLines : Prop :=
  ∀ (pins : BitVec 8) (n : LineId) (s : State) (x : CueLine) (level : Level),
    s.due = [] → (∀ m, positionDue s m = false) → x = s.line n →
    level = (if pins.getLsbD n.val then Level.high else Level.low) →
    ∃ t, exec (.stationTick pins) s = .next t ∧
      (Due.debounce n ∈ t.due ↔
        x.direction = .input ∧ x.reinit = false ∧ level ≠ x.debounced ∧ x.debounce ≤ x.pending) ∧
      t.line n =
        if x.direction = .output then x
        else if x.reinit = true then { x with sampled := level, debounced := level, pending := 0, reinit := false }
        else if level = x.debounced then { x with sampled := level, pending := 0 }
        else if x.pending < x.debounce then { x with sampled := level, pending := x.pending + 1 }
        else { x with sampled := level }

/-- The debounced edge that a tick made due gives the line its sampled level and clears the pending count. A selected
edge clocks the counters of EDGES of that line: a RUNNING one whose gate admits, with a count above 1 and no clock
event waiting, counts down by one. Any other counter, line and block keeps its values. That the edge is a step of its
own, after its tick, is the model's choice (log entry 2). -/
def Obligations.DebounceEdgeTakesTheLevel : Prop :=
  ∀ (n : LineId) (s : State) (x : CueLine) (selected : Prop),
    Settled s → x = s.line n → Due.debounce n ∈ s.due →
    x.direction = .input → x.reinit = false → x.sampled ≠ x.debounced →
    (selected ↔ x.edge = .both ∨ (x.edge = .rise ∧ x.sampled = .high) ∨ (x.edge = .fall ∧ x.sampled = .low)) →
    ∃ t, exec (.debounceEdge n) s = .next t ∧
      (∃ c d, t = { s with
        lines := s.lines.put n { x with debounced := x.sampled, pending := 0 }, counters := c, due := d }) ∧
      (∀ c, (s.counter c).source ≠ .edges n ∨ ¬selected ∨ (s.counter c).running = false →
        t.counter c = s.counter c) ∧
      (∀ c, (s.counter c).source = .edges n → selected → (s.counter c).running = true → 1 < (s.counter c).count →
        s.due = [.debounce n] →
        (((s.counter c).gate = .always ∨ ((s.counter c).gate = .lineHigh n ∧ x.sampled = .high) ∨
            ((s.counter c).gate = .lineLow n ∧ x.sampled = .low)) →
          t.counter c = { s.counter c with count := (s.counter c).count - 1 }) ∧
        (((s.counter c).gate = .lineHigh n ∧ x.sampled = .low) ∨
            ((s.counter c).gate = .lineLow n ∧ x.sampled = .high) →
          t.counter c = s.counter c))

/-- An expiry stops a ONE_SHOT counter with count 0 and begins a PERIODIC one again at its reload. It fires the target:
an alert target renews a live channel; ALERT_ON activates an IDLE one as the command ALERT_ON does, and sets BLOCKED in
one that is masked or has no priority; an EVENT target that is SCHEDULED is taken as the command SPLICE_NOW takes it; a
target that no longer stands as it did does nothing. The counter above counts the expiry if its source is EXPIRY, it is
RUNNING and its gate is open, here with a count above 1. Events that still wait for a counter that stops are ignored,
which is the model's reading (log entry 27, from R165 in section 9.4). -/
def Obligations.ExpiryFiresAndPassesOn : Prop :=
  ∀ (c : CounterId) (s : State) (x expired : Counter),
    Settled s → x = s.counter c → Due.clock c ∈ s.due → x.running = true → x.gate = .always → x.count = 1 →
    expired = (match x.mode with
      | .oneShot => { x with count := 0, running := false }
      | .periodic => { x with count := x.reload }) →
    let fired : State := { s with
      counters := s.counters.put c expired
      due := match x.mode with
        | .oneShot => s.due.filter (fun d => decide (d ≠ Due.clock c ∧ d ≠ Due.pulse c))
        | .periodic => s.due.erase (.clock c) }
    ((c.val = 15 ∨ ∀ d : CounterId, d.val = c.val + 1 →
        (s.counter d).source ≠ .expiry ∨ (s.counter d).running = false) →
      (x.target = .nothing → exec (.counterExpiry c) s = .next fired) ∧
      (∀ a, x.target = .alertOn a ∨ x.target = .alertRenew a → (s.alert a).state ≠ .idle →
        exec (.counterExpiry c) s = .next { fired with alerts := s.alerts.put a { s.alert a with
          deadline := some (s.now +
            BitVec.ofNat 32 (([2, 5, 10, 20, 30, 60, 120, 300].getD (s.alert a).leaseCode.val 0) * 1000)) } }) ∧
      (∀ a, x.target = .alertOn a → (s.alert a).state = .idle →
        (s.alert a).masked = true ∨ (s.alert a).priority = none →
        exec (.counterExpiry c) s =
          .next { fired with alerts := s.alerts.put a { s.alert a with blocked := true } }) ∧
      (∀ a, x.target = .alertOn a → (s.alert a).state = .idle → (s.alert a).masked = false →
        (s.alert a).priority.isSome →
        ∃ t, exec (.counterExpiry c) s = .next t ∧ exec (.alertOn ⟨0, 0, 0⟩ a.val) fired = .next (t.codeAnswered .ok)) ∧
      (∀ a, x.target = .alertRenew a → (s.alert a).state = .idle → exec (.counterExpiry c) s = .next fired) ∧
      (∀ e, x.target = .event e → (s.event e).state = .scheduled →
        ∃ t, exec (.counterExpiry c) s = .next t ∧
          exec (.spliceNow ⟨0, 0, 0⟩ e.val) fired = .next (t.codeAnswered .ok)) ∧
      (∀ e, x.target = .event e → (s.event e).state ≠ .scheduled → exec (.counterExpiry c) s = .next fired)) ∧
    (∀ d : CounterId, d.val = c.val + 1 → x.target = .nothing → (s.counter d).source = .expiry →
      (s.counter d).running = true → (s.counter d).gate = .always → 1 < (s.counter d).count →
      exec (.counterExpiry c) s = .next { fired with
        counters := fired.counters.put d { s.counter d with count := (s.counter d).count - 1 } })

/-- COUNTER_START loads the reload and runs the counter, whether or not it runs; COUNTER_STOP stops it with its count,
and the clock events waiting for it are ignored, which is the model's reading (log entry 27, from R165 in section 9.4).
Each is refused BAD_INDEX beyond counter 15, and GUARDED by its guard. -/
def Obligations.CountersStartAndStop : Prop :=
  ∀ (x : Ctx) (c : CounterId) (i : Nat) (s : State),
    (x.cls ≤ (s.counter c).guard →
      exec (.counterStart x c.val) s = .next ({ s with
        counters := s.counters.put c { s.counter c with count := (s.counter c).reload, running := true }
        }.codeAnswered .ok) ∧
      exec (.counterStop x c.val) s = .next ({ s with
        counters := s.counters.put c { s.counter c with running := false }
        due := s.due.filter (fun d => decide (d ≠ Due.clock c ∧ d ≠ Due.pulse c)) }.codeAnswered .ok)) ∧
    ((s.counter c).guard < x.cls →
      exec (.counterStart x c.val) s = .next (s.codeAnswered .guarded) ∧
      exec (.counterStop x c.val) s = .next (s.codeAnswered .guarded)) ∧
    (16 ≤ i →
      exec (.counterStart x i) s = .next (s.codeAnswered .badIndex) ∧
      exec (.counterStop x i) s = .next (s.codeAnswered .badIndex))

/-! ### Output lanes -/

/-- A window's start ends the old window: each service with a slot, a route on the lane and a clock model has its shed
level raised by one, to 7 at most, if its lateness exceeds the late limit, lowered by one if it is at most half of it;
the lane takes its capacity, reloads every allotment, clears holds and the reserve, and begins at position 0. -/
def Obligations.WindowStartReloadsTheLane : Prop :=
  ∀ (n : OutLaneId) (s : State), Due.window n ∈ s.due → RoutesUnique s →
    ∃ t rest, exec (.windowStart n) s = .next t ∧
      t = { s with
        due := s.due.erase (.window n), services := t.services
        outLanes := s.outLanes.put n { s.outLane n with
          windowK := (s.outLane n).capacity, remaining := rest, held := Vector.replicate 64 false
          reserveUsed := false, position := 0 } } ∧
      (∀ v r, (s.route r).state = .active → (s.route r).service = some v → (s.route r).outLane = n →
        rest.get v = (s.route r).allotment) ∧
      (∀ v, (∀ r, ¬((s.route r).state = .active ∧ (s.route r).service = some v ∧ (s.route r).outLane = n)) →
        rest.get v = 0 ∧ t.svc v = s.svc v) ∧
      (∀ v, (s.svc v).slot = none ∨ (s.svc v).clock = none → t.svc v = s.svc v) ∧
      (∀ v r, (s.route r).state = .active → (s.route r).service = some v → (s.route r).outLane = n →
        (s.svc v).slot.isSome → (s.svc v).clock.isSome →
        t.svc v = { s.svc v with
          shedLevel :=
            if ((s.svc v).cfg.lateLimit : Int) < (s.svc v).lateness then min 7 ((s.svc v).shedLevel + 1)
            else if (s.svc v).lateness ≤ (((s.svc v).cfg.lateLimit / 2 : Nat) : Int) then (s.svc v).shedLevel - 1
            else (s.svc v).shedLevel })

/-- A cell position that is due is never left empty: the lane emits one cell, and moves on by one position; the other
lane emits nothing. A position that is not due changes nothing; that is the model's choice (log entry 17). -/
def Obligations.PositionIsNeverEmpty : Prop :=
  ∀ (n : OutLaneId) (s : State),
    (positionDue s n = false → exec (.outputPosition n) s = .next s) ∧
    (positionDue s n = true → ∃ t c, exec (.outputPosition n) s = .next t ∧
      (t.outLane n).out = some c ∧ (t.outLane n).position = (s.outLane n).position + 1 ∧
      (t.outLane n).capacity = (s.outLane n).capacity ∧ (t.outLane n).windowK = (s.outLane n).windowK ∧
      ∀ m, m ≠ n → t.outLane m = s.outLane m)

/-- What a due position carries, step by step. The first response candidate of a window goes before all else and uses
the response reserve: the head of the queue of an enabled channel with queued responses on the lane, the next in
ascending cyclic order after the channel that the lane's response rotation names. With no service that may insert, the
position carries the oldest network cell, with its route's tag and continuity and the route's restart mark as
DISCONTINUITY; with an empty FIFO the same choice of a response, the reserve being used; and else filler. -/
def Obligations.PositionCarriesWhatIsFirst : Prop :=
  ∀ (n : OutLaneId) (s : State), Settled s → positionDue s n = true →
    let candidate : ChannelId → Prop := fun h =>
      (s.channel h).enabled = true ∧ (s.channel h).respLane = n ∧ (s.channel h).queue ≠ []
    let turn : ChannelId → Nat := fun h => match (s.outLane n).respRot with
      | some l => (h.val + 3 - l.val) % 4
      | none => h.val
    let noInsert : Prop :=
      ∀ v, (s.outLane n).remaining.get v = 0 ∨ (s.outLane n).held.get v = true ∨ (s.svc v).slot = none
    (∀ h c rest, candidate h → (s.channel h).queue = c :: rest → (∀ g, g ≠ h → candidate g → turn h < turn g) →
      let emitted : State := { s with
        channels := s.channels.put h { s.channel h with queue := rest }
        outLanes := s.outLanes.put n { s.outLane n with
          out := some c, position := (s.outLane n).position + 1, respRot := some h, reserveUsed := true } }
      ((s.outLane n).reserveUsed = false → exec (.outputPosition n) s = .next emitted) ∧
      ((s.outLane n).reserveUsed = true → noInsert → (s.outLane n).fifo = [] →
        exec (.outputPosition n) s = .next emitted)) ∧
    ((s.outLane n).reserveUsed = true ∨ (∀ h, ¬candidate h) → noInsert → ∀ r c rest,
      (s.outLane n).fifo = ⟨r, c⟩ :: rest →
      exec (.outputPosition n) s = .next { s with
        routes := s.routes.put r { s.route r with
          continuity := (s.route r).continuity + 1, restartMark := false }
        outLanes := s.outLanes.put n { s.outLane n with
          fifo := rest, position := (s.outLane n).position + 1
          out := some { c with
            tag := (s.route r).outTag, continuity := (s.route r).continuity
            discontinuity := c.discontinuity || (s.route r).restartMark } } }) ∧
    ((∀ h, ¬candidate h) → noInsert → (s.outLane n).fifo = [] →
      exec (.outputPosition n) s = .next { s with
        outLanes := s.outLanes.put n { s.outLane n with
          position := (s.outLane n).position + 1
          out := some { tag := 4095, kind := .filler, continuity := 0, unitStart := false, splicePoint := false,
                        essential := false, discontinuity := false, rs := none, ps := none, length := 0,
                        payload := List.replicate 240 0 } } })

/-- The one service that may insert emits the head of its reader: stamps rewritten to reader base plus feed position, a
stray stamp removed and counted with STRAY_SEEN, the insert mark as DISCONTINUITY, one cell of its allotment used, an
ACTIVE ad event's cells inserted raised, and the reader and the ring's tail moved on by one. With a clock model the
lateness, projection minus rewritten RS, is stored and the pattern counter advances, for a head that is not earlier than
the lead limit and is essential or has its pattern at or above the shed level. A head that is neither is shed: it
leaves the ring unemitted and raises the event's cells shed; here it is the ring's last, and the position carries
filler. -/
def Obligations.InsertedCellIsRebased : Prop :=
  ∀ (n : OutLaneId) (v : SvcId) (r : RouteId) (k : SlotId) (c : RingCell) (ring : List RingCell) (s : State)
    (old : Service) (late : Int),
    positionDue s n = true →
    (∀ h, (s.channel h).enabled = false ∨ (s.channel h).respLane ≠ n ∨ (s.channel h).queue = []) →
    (∀ w, w ≠ v → (s.outLane n).remaining.get w = 0 ∨ (s.outLane n).held.get w = true ∨ (s.svc w).slot = none) →
    (s.outLane n).remaining.get v ≠ 0 → (s.outLane n).held.get v = false → RoutesUnique s →
    (s.route r).state = .active → (s.route r).service = some v → (s.route r).outLane = n →
    (∀ x ∈ (s.outLane n).fifo, x.route ≠ r) → old = s.svc v → old.slot = some k →
    (s.slot k).readers = [⟨v, (s.slot k).tail, .none⟩] → (s.slot k).ring = c :: ring →
    let projected : Option Stamp := old.clock.map (fun m =>
      m.rs + BitVec.ofNat 36 (if old.held then 10485760000 else (s.now - m.ms).toNat * 10000))
    late = (match projected, c.rs with
      | some p, .pos f => (p - (old.base + f)).toInt
      | _, _ => old.lateness) →
    (old.clock.isSome → -late ≤ (old.cfg.leadLimit : Int)) →
    let stamp : RingStamp → Option Stamp := fun x => match x with
      | .pos f => some (old.base + f)
      | _ => none
    let strays : Nat := (if c.rs = .stray then 1 else 0) + (if c.ps = .stray then 1 else 0)
    let judged : Service := { old with
      lateness := late, shedPattern := if old.clock.isSome then (old.shedPattern + 1) % 8 else old.shedPattern }
    let counted : (Event → Event) → Tbl Event 256 := fun f => match (s.slot k).owner with
      | some (.event e) =>
        if (s.event e).state = .active ∧ (s.event e).service = v then s.events.put e (f (s.event e)) else s.events
      | _ => s.events
    let taken : Tbl Slot 16 := s.slots.put k { s.slot k with
      ring := ring, tail := (s.slot k).tail + 1, readers := [⟨v, (s.slot k).tail + 1, .none⟩] }
    (old.clock = none ∨ c.cell.essential = true ∨ old.shedLevel ≤ old.shedPattern →
      ∃ t, exec (.outputPosition n) s = .next t ∧ Followed
        { s with
          services := s.services.put v { judged with
            insertMark := false
            strayCount := if strays = 0 then old.strayCount else min (old.strayCount + strays) 65535
            straySeen := old.straySeen || decide (strays ≠ 0) }
          events := counted (fun x => { x with inserted := min (x.inserted + 1) 4294967295 })
          slots := taken
          routes := s.routes.put r { s.route r with
            continuity := (s.route r).continuity + 1, restartMark := false }
          outLanes := s.outLanes.put n { s.outLane n with
            position := (s.outLane n).position + 1, insRot := some v
            remaining := (s.outLane n).remaining.put v ((s.outLane n).remaining.get v - 1)
            out := some { c.cell with
              tag := (s.route r).outTag, continuity := (s.route r).continuity
              rs := stamp c.rs, ps := stamp c.ps
              discontinuity := c.cell.discontinuity || old.insertMark || (s.route r).restartMark } } } t) ∧
    (old.clock.isSome → c.cell.essential = false → old.shedPattern < old.shedLevel → ring = [] →
      (s.outLane n).fifo = [] →
      ∃ t, exec (.outputPosition n) s = .next t ∧ Followed
        { s with
          services := s.services.put v judged
          events := counted (fun x => { x with shed := min (x.shed + 1) 4294967295 })
          slots := taken
          outLanes := s.outLanes.put n { s.outLane n with
            position := (s.outLane n).position + 1
            out := some { tag := 4095, kind := .filler, continuity := 0, unitStart := false, splicePoint := false,
                          essential := false, discontinuity := false, rs := none, ps := none, length := 0,
                          payload := List.replicate 240 0 } } } t)

/-- A head whose lateness is before the lead limit holds its service for the window, and the position goes on to the
network cells and filler; the lateness, projection minus rewritten RS, is stored. -/
def Obligations.EarlyHeadHoldsTheService : Prop :=
  ∀ (n : OutLaneId) (v : SvcId) (r : RouteId) (k : SlotId) (c : RingCell) (ring : List RingCell) (m : ClockModel)
    (f : Stamp) (late : Int) (s : State),
    Settled s → positionDue s n = true →
    (∀ h, (s.channel h).enabled = false ∨ (s.channel h).respLane ≠ n ∨ (s.channel h).queue = []) →
    (∀ w, w ≠ v → (s.outLane n).remaining.get w = 0 ∨ (s.outLane n).held.get w = true ∨ (s.svc w).slot = none) →
    (s.outLane n).remaining.get v ≠ 0 → (s.outLane n).held.get v = false → RoutesUnique s →
    (s.route r).state = .active → (s.route r).service = some v → (s.route r).outLane = n →
    (s.outLane n).fifo = [] → (s.svc v).slot = some k → (s.svc v).clock = some m → (s.svc v).held = false →
    (s.slot k).readers = [⟨v, (s.slot k).tail, .none⟩] → (s.slot k).ring = c :: ring → c.rs = .pos f →
    late = ((m.rs + BitVec.ofNat 36 ((s.now - m.ms).toNat * 10000)) - ((s.svc v).base + f)).toInt →
    ((s.svc v).cfg.leadLimit : Int) < -late →
    exec (.outputPosition n) s = .next { s with
      services := s.services.put v { s.svc v with lateness := late }
      outLanes := s.outLanes.put n { s.outLane n with
        held := (s.outLane n).held.put v true, position := (s.outLane n).position + 1
        out := some { tag := 4095, kind := .filler, continuity := 0, unitStart := false, splicePoint := false,
                      essential := false, discontinuity := false, rs := none, ps := none, length := 0,
                      payload := List.replicate 240 0 } } }

/-! ### Store port and feeder -/

/-- A grant in REQUESTING, with fast arbitration or bus-busy released, makes the port OWNER: it continues an interrupted
fetch without counting it toward the duty limit, or begins the arbiter's choice, the alert slot of the highest priority
or else the emptiest and lowest slot, at the address of its cell, or withdraws with a gap to wait. Any other grant
changes nothing. -/
def Obligations.GrantTakesTheBus : Prop :=
  ∀ (busBusy : Bool) (s : State), Settled s →
    ((s.port.phase ≠ .requesting ∨ (s.port.fast = false ∧ busBusy = true)) → exec (.busGrant busBusy) s = .next s) ∧
    (s.port.phase = .requesting → (s.port.fast = true ∨ busBusy = false) → 1 ≤ s.port.tenureLimit →
      (s.port.resume = true → exec (.busGrant busBusy) s =
        .next { s with port := { s.port with phase := .owner, tenure := 1, resume := false } }) ∧
      (s.port.resume = false → (s.port.dutyLimit ≤ s.port.duty ∨ ∀ k, (s.slot k).wants = false) → 1 ≤ s.port.gap →
        exec (.busGrant busBusy) s =
          .next { s with port := { s.port with phase := .releasing, tenure := 0, gapCount := s.port.gap } }) ∧
      (∀ (k : SlotId) (c : ClipId), s.port.resume = false → s.port.duty < s.port.dutyLimit →
        (s.slot k).wants = true →
        ((∃ a, (s.slot k).owner = some (.alert a) ∧ ∀ j b, j ≠ k → (s.slot j).wants = true →
            (s.slot j).owner = some (.alert b) → (s.alert a).rank < (s.alert b).rank) ∨
          (∀ j, (s.slot j).wants = true → (∀ b, (s.slot j).owner ≠ some (.alert b)) ∧
            (j ≠ k → (s.slot k).ring.length < (s.slot j).ring.length ∨
              ((s.slot k).ring.length = (s.slot j).ring.length ∧ k < j)))) →
        ((∃ l, (s.slot k).clips = .list l ∧ l[(s.slot k).cursor.listPos]? = some c) ∨
          (s.slot k).clips = .looped c) →
        (s.clip c).state = .loaded → (s.window (s.clip c).window).enabled = true →
        exec (.busGrant busBusy) s = .next { s with
          slots := s.slots.put k { s.slot k with inFlight := some (s.slot k).cursor }
          port := { s.port with
            phase := .owner, tenure := 1, duty := s.port.duty + 1, buffer := []
            fetch := some
              { slot := k, point := (s.slot k).cursor, burst := 0, beat := none, retry := 0
                addr := (s.window (s.clip c).window).base + BitVec.ofNat 36
                  (((s.clip c).offset + 256 * (s.slot k).cursor.cell) % (s.window (s.clip c).window).length) } } }))

/-- The store's answers to an OWNER port before the cell's last burst: ACK accepts four beats, or the one beat of a
burst that is moved as single beats; BURST_INHIBIT accepts the first beat and goes on beat by beat; ACK with ERROR
issues the same transfer again, at most 8 times in a burst; the next burst begins with no retries. -/
def Obligations.AnswersMoveTheBurst : Prop :=
  ∀ (inhibit : Bool) (data : List Byte) (f : Fetch) (s : State),
    Settled s → s.port.phase = .owner → s.port.fetch = some f → s.port.abandon = false → f.burst < 7 →
    (f.beat = none → exec (.burstAnswer true false false data) s = .next { s with port := { s.port with
      buffer := s.port.buffer ++ data.take 32
      fetch := some { f with burst := f.burst + 1, beat := none, retry := 0 } } }) ∧
    (f.beat = none → exec (.burstAnswer true false true data) s = .next { s with port := { s.port with
      buffer := s.port.buffer ++ data.take 8, fetch := some { f with beat := some 1 } } }) ∧
    (∀ j, f.beat = some j → j < 3 → exec (.burstAnswer true false inhibit data) s = .next { s with
      port := { s.port with
        buffer := s.port.buffer ++ data.take 8, fetch := some { f with beat := some (j + 1) } } }) ∧
    (f.beat = some 3 → exec (.burstAnswer true false inhibit data) s = .next { s with port := { s.port with
      buffer := s.port.buffer ++ data.take 8
      fetch := some { f with burst := f.burst + 1, beat := none, retry := 0 } } }) ∧
    (f.retry < 8 → exec (.burstAnswer true true inhibit data) s = .next { s with port := { s.port with
      fetch := some { f with retry := f.retry + 1 } } })

/-- An accepted burst 7 completes the cell: the 256 bytes, if they are a valid MEDIA cell, go to the end of the ring of
an ad event's slot with the pass number and the converted stamps, the slot's fault count becomes 0 and its cursor moves
on by one cell. -/
def Obligations.FinishedFetchFillsTheRing : Prop :=
  ∀ (data : List Byte) (f : Fetch) (c : ClipId) (e : EventId) (cell : Cell) (s : State),
    LastOfTenure s f c → f.burst = 7 → f.beat = none → (s.slot f.slot).readers = [] →
    (s.slot f.slot).owner = some (.event e) →
    judge (s.port.buffer ++ data.take 32) = some cell → cell.kind = .media →
    exec (.burstAnswer true false false data) s = .next { s with
      port := releasingPort s.port
      slots := s.slots.put f.slot { s.slot f.slot with
        ring := (s.slot f.slot).ring ++ [⟨cell, (s.slot f.slot).cursor.pass,
          convert (s.clip c) (s.slot f.slot).feedStart cell.rs, convert (s.clip c) (s.slot f.slot).feedStart cell.ps⟩]
        written := (s.slot f.slot).written + 1, faults := 0, inFlight := none
        cursor := { (s.slot f.slot).cursor with cell := (s.slot f.slot).cursor.cell + 1 } } }

/-- A fault, by ERROR alone, by no answer line or by an ACK with ERROR at the retry limit, sets STORE_FAULT_SEEN and is
handled by the slot's owner: a loss or alert slot skips the cell and counts the fault; a live alert channel counts it
too, and an ACTIVE one stalls at the fourth in a row; the insertion of an ACTIVE ad event ends early, its pending outcome
ABORTED with STORE_FAULT and TRUNCATED, its service RETURNING and its slot's fetching stopped; a CUEING ad event closes
as ABORTED with STORE_FAULT, its service goes NETWORK and its slot is released. -/
def Obligations.StoreFaultsGoToTheOwner : Prop :=
  ∀ (ack error inhibit : Bool) (data : List Byte) (f : Fetch) (c : ClipId) (s : State),
    LastOfTenure s f c → (ack = false ∨ (error = true ∧ 8 ≤ f.retry)) →
    let skipped : State := { s with
      storeFaultSeen := true, port := releasingPort s.port
      slots := s.slots.put f.slot { s.slot f.slot with
        faults := min ((s.slot f.slot).faults + 1) 65535, inFlight := none
        cursor := { (s.slot f.slot).cursor with cell := (s.slot f.slot).cursor.cell + 1 } } }
    (∀ v, (s.slot f.slot).owner = some (.loss v) → exec (.burstAnswer ack error inhibit data) s = .next skipped) ∧
    (∀ a, (s.slot f.slot).owner = some (.alert a) → (s.alert a).state ≠ .idle →
      let stalls := (s.alert a).state = .active ∧ 3 ≤ (s.alert a).faults
      exec (.burstAnswer ack error inhibit data) s = .next { skipped with
        alerts := s.alerts.put a { s.alert a with
          faults := min ((s.alert a).faults + 1) 65535
          state := if stalls then .stalled else (s.alert a).state
          stallSeen := if stalls then true else (s.alert a).stallSeen } }) ∧
    (∀ e v, (s.slot f.slot).owner = some (.event e) → (s.event e).state = .active →
      (s.event e).slot = some f.slot → (s.event e).service = v → (s.svc v).state = .inserting →
      ∃ t, exec (.burstAnswer ack error inhibit data) s = .next t ∧ Followed
        { s with
          storeFaultSeen := true, port := releasingPort s.port
          events := s.events.put e { s.event e with
            outcome := some .aborted
            flags := { (s.event e).flags with storeFault := true, truncated := true } }
          services := s.services.put v { s.svc v with
            state := .returning, returnRef := none
            returnFlags := { (s.svc v).returnFlags with truncated := true } }
          slots := s.slots.put f.slot { s.slot f.slot with inFlight := none, fetchEnd := .stopped } } t) ∧
    (∀ e v, (s.slot f.slot).owner = some (.event e) → (s.event e).state = .cueing →
      (s.event e).slot = some f.slot → (s.event e).service = v → (s.slot f.slot).readers = [] → s.waitList = [] →
      let closed : Event := { s.event e with
        state := .aborted, outcome := some .aborted, slot := none
        flags := { (s.event e).flags with storeFault := true } }
      ∃ t, exec (.burstAnswer ack error inhibit data) s = .next t ∧ Followed
        { s with
          storeFaultSeen := true, port := releasingPort s.port, events := s.events.put e closed
          log := s.log ++ [entryOf e closed .aborted s.now], slots := s.slots.put f.slot Slot.reset
          services := s.services.put v (backInNetwork (s.svc v)) } t)

/-- A back-off ends an OWNER port's tenure: the interrupted burst is kept to be issued again from its first beat, with
the bytes of the earlier bursts and the retry count; an abandoned fetch is dropped, which is the model's reading (log
entry 26). A back-off of a port that is not OWNER changes nothing. GAP_END, which stands for all the store clocks that
are left of the gap (the model's choice, log entry 3), makes a RELEASING port IDLE, and at once REQUESTING if a fetch is to be resumed or a cell
that may be begun is wanted. -/
def Obligations.BackOffAndGapEndTheTenure : Prop :=
  ∀ s : State,
    (s.port.phase ≠ .owner → exec .backOff s = .next s) ∧
    (s.port.phase = .owner → 1 ≤ s.port.gap →
      (∀ f, s.port.fetch = some f → s.port.abandon = false →
        exec .backOff s = .next { s with port := { s.port with
          phase := .releasing, gapCount := s.port.gap, resume := true, buffer := s.port.buffer.take (32 * f.burst)
          fetch := some { f with beat := none } } }) ∧
      (∀ f, s.port.fetch = some f → s.port.abandon = true →
        exec .backOff s = .next { s with port := releasingPort s.port }) ∧
      (s.port.fetch = none →
        exec .backOff s = .next { s with port := { s.port with phase := .releasing, gapCount := s.port.gap } })) ∧
    (s.port.phase ≠ .releasing → exec .gapEnd s = .next s) ∧
    (s.port.phase = .releasing → exec .gapEnd s = .next { s with port := { s.port with
      gapCount := 0
      phase := if s.port.resume ∨ (s.port.duty < s.port.dutyLimit ∧ ∃ k, (s.slot k).wants = true) then .requesting
        else .idle } })

/-- The correction is the exact product of elapsed time and trim over 2^24, rounded to the nearest whole number, halves
away from zero; the corrected elapsed time is their sum. A stamp whose elapsed time from the clip's origin lies more than
2^24 ticks before it is stray; any other has the feed start plus its corrected elapsed time as its feed position. -/
def Obligations.TrimIsRoundedToNearest : Prop :=
  (∀ e trim : Int, corrected e trim = e + trimOf e trim ∧
    2 * (trimOf e trim * 2 ^ 24 - e * trim).natAbs ≤ 2 ^ 24 ∧
    (2 * (trimOf e trim * 2 ^ 24 - e * trim).natAbs = 2 ^ 24 → (e * trim).natAbs < (trimOf e trim * 2 ^ 24).natAbs)) ∧
  ∀ (c : Clip) (feedStart x : Stamp), let e := (x - c.c0).toInt
    (e < -16777216 → convert c feedStart (some x) = .stray) ∧
    (-16777216 ≤ e → convert c feedStart (some x) = .pos (feedStart + BitVec.ofInt 36 (corrected e c.trim))) ∧
    convert c feedStart none = .absent

/-- Over m passes of a list the unit period's fraction is paid out whole: what the passes add to the feed position is
their trimmed spans, m whole unit periods, and the whole ticks in m fractions; the rest stays in the accumulator. -/
def Obligations.FeedPositionsPayOutTheFraction : Prop :=
  ∀ (unitInt unitFrac : Nat) (l : List Clip), unitFrac < 65536 →
    (l.foldl (passEnd unitInt unitFrac) ⟨0, 0⟩).frac = l.length * unitFrac % 65536 ∧
    feedTotal unitInt unitFrac l = BitVec.ofInt 36
      ((l.map spanOf).sum + ((l.length * unitInt + l.length * unitFrac / 65536 : Nat) : Int))

/-! ### Alert channels -/

/-- ALERT_ON at class 0 to an IDLE, unmasked channel with a priority takes the lowest FREE slot, or with none FREE reclaims
the victim's: the slot is claimed for the channel with the alert clip looped, the lease begins, the channel goes ACTIVE
with no faults, and every service of its group has the owner it should have; the owners of all other services, and all
other channels, stay. A CUEING event that loses its slot to the reclaim is MISSED with ALERT, an ACTIVE one takes outcome
ABORTED with ALERT and TRUNCATED, and the INSERTING service of a loss fill goes NETWORK and dark. Here the port is not
between two transfers of a cell, where the end of the cell may let it begin another at once. -/
def Obligations.AlertOnActivates : Prop :=
  ∀ (x : Ctx) (a : AlertId) (k : SlotId) (s : State) (old : Alert),
    old = s.alert a → x.cls = 0 → old.state = .idle → old.masked = false → old.priority.isSome →
    ¬BetweenTransfers s →
    (((s.slot k).owner = none ∧ ∀ j, j < k → (s.slot j).owner.isSome) ∨
      ((∀ j, (s.slot j).owner.isSome) ∧ IsVictim s old.group k)) →
    (∀ e, (s.event e).slot = some k → (s.slot k).owner = some (.event e)) →
    ∃ t, exec (.alertOn x a.val) s = .next t ∧ t.lastResult = some ⟨.ok, 0, []⟩ ∧
      t.alerts = s.alerts.put a { old with
        state := .active, slot := some k, faults := 0
        deadline := some (s.now +
          BitVec.ofNat 32 (([2, 5, 10, 20, 30, 60, 120, 300].getD old.leaseCode.val 0) * 1000)) } ∧
      (t.slot k).owner = some (.alert a) ∧ (t.slot k).clips = .looped old.clip ∧
      (∀ v, old.group.getLsbD v.val = true → OwnerRight t v) ∧
      (∀ v, old.group.getLsbD v.val = false → (t.svc v).owner = (s.svc v).owner) ∧
      SameTables s t ∧ SameManagement s t ∧ t.outLanes = s.outLanes ∧
      (∀ e, (s.slot k).owner = some (.event e) → (s.event e).state = .cueing →
        (t.event e).state = .missed ∧ (t.event e).outcome = some .missed ∧ (t.event e).flags.alert = true) ∧
      (∀ e, (s.slot k).owner = some (.event e) → (s.event e).state = .active →
        (∀ v, (s.svc v).event = some e → (s.svc v).state ≠ .cueing) →
        (t.event e).outcome = some .aborted ∧ (t.event e).flags.alert = true ∧
          (t.event e).flags.truncated = true) ∧
      (∀ v, (s.slot k).owner = some (.loss v) → (s.svc v).state = .inserting →
        old.group.getLsbD v.val = false → Claimant.loss v ∉ s.waitList →
        (t.svc v).state = .network ∧ (t.svc v).dark = true)

/-- The activation takes a NETWORK service of its group, here the only one, with a route and without another owner: it
goes to ALERT with the insert mark set and attaches to the channel's ring, empty as yet, seeking its join cell. -/
def Obligations.AlertTakesANetworkService : Prop :=
  ∀ (x : Ctx) (a : AlertId) (k : SlotId) (v : SvcId) (r : RouteId) (s : State) (old : Alert) (svc : Service),
    old = s.alert a → x.cls = 0 → old.state = .idle → old.masked = false → old.priority.isSome →
    (s.slot k).owner = none → (∀ j, j < k → (s.slot j).owner.isSome) →
    (∀ w : SvcId, old.group.getLsbD w.val = true ↔ w = v) →
    (∀ b, b ≠ a → (s.alert b).state = .idle ∨ (s.alert b).group.getLsbD v.val = false) →
    svc = s.svc v → svc.state = .network → svc.lossWaiting = false → svc.owner = none →
    (s.route r).state = .active → (s.route r).service = some v →
    ∃ t, exec (.alertOn x a.val) s = .next (t.codeAnswered .ok) ∧ Followed
      { s with
        alerts := s.alerts.put a { old with
          state := .active, slot := some k, faults := 0
          deadline := some (s.now +
            BitVec.ofNat 32 (([2, 5, 10, 20, 30, 60, 120, 300].getD old.leaseCode.val 0) * 1000)) }
        slots := s.slots.put k { Slot.reset with
          owner := some (.alert a), clips := .looped old.clip, unitInt := svc.cfg.unitInt
          unitFrac := svc.cfg.unitFrac, readers := [⟨v, 0, .join⟩] }
        services := s.services.put v { svc with
          state := .alert, kind := none, event := none, owner := some a, slot := some k, backstop := none
          returnRef := none, exitPending := false, returnPending := false, returnFlags := ⟨false, false, false⟩
          insertMark := true, shedLevel := 0, shedPattern := 0, lateness := 0 } } t

/-- ALERT_RENEW, and ALERT_ON, at class 0 to a live channel set its lease deadline afresh and change nothing else;
ALERT_RENEW of an IDLE channel is refused WRONG_STATE, ALERT_ON of a masked one MASKED and of one without a priority
WRONG_STATE; any other class is refused GUARDED, and a channel beyond 7 BAD_INDEX. -/
def Obligations.RenewalMovesTheDeadline : Prop :=
  ∀ (x : Ctx) (a : AlertId) (i : Nat) (s : State),
    let renewed := s.alerts.put a { s.alert a with
      deadline := some (s.now +
        BitVec.ofNat 32 (([2, 5, 10, 20, 30, 60, 120, 300].getD (s.alert a).leaseCode.val 0) * 1000)) }
    (x.cls = 0 → (s.alert a).state ≠ .idle →
      exec (.alertRenew x a.val) s = .next ({ s with alerts := renewed }.codeAnswered .ok) ∧
      exec (.alertOn x a.val) s = .next ({ s with alerts := renewed }.codeAnswered .ok)) ∧
    (x.cls = 0 → (s.alert a).state = .idle →
      exec (.alertRenew x a.val) s = .next (s.codeAnswered .wrongState) ∧
      ((s.alert a).masked = true → exec (.alertOn x a.val) s = .next (s.codeAnswered .masked)) ∧
      ((s.alert a).masked = false → (s.alert a).priority = none →
        exec (.alertOn x a.val) s = .next (s.codeAnswered .wrongState))) ∧
    (x.cls ≠ 0 → exec (.alertRenew x a.val) s = .next (s.codeAnswered .guarded) ∧
      exec (.alertOn x a.val) s = .next (s.codeAnswered .guarded)) ∧
    (8 ≤ i → exec (.alertRenew x i) s = .next (s.codeAnswered .badIndex) ∧
      exec (.alertOn x i) s = .next (s.codeAnswered .badIndex))

/-- ALERT_OFF at class 0 ends a live channel, and so does the lapse of its lease, which sets LAPSED: the channel goes
IDLE without deadline and slot, its slot is no longer its own, and every service of its group has the owner it should
have; no other flag is set, and the other channels and owners stay. A service that the channel alone owned, the only one
of its group, goes RETURNING with kind ALERT and a backstop if its lane is UP, and dark into NETWORK if its lane is DOWN
and it has no loss clip; if another live channel claims it, the one of the highest priority owns it, with the insert mark
set, and it reads that channel's ring. Here the port is not between two transfers of a cell. ALERT_OFF of an IDLE channel is refused WRONG_STATE,
of another class GUARDED, beyond channel 7 BAD_INDEX. -/
def Obligations.AlertChannelsEnd : Prop :=
  ∀ (x : Ctx) (a : AlertId) (i : Nat) (s : State) (old : Alert), old = s.alert a →
    let ended : State → Prop := fun t =>
      (∀ k, old.slot = some k → (t.slot k).owner ≠ some (.alert a)) ∧
      (∀ v, old.group.getLsbD v.val = true → OwnerRight t v) ∧
      (∀ v, old.group.getLsbD v.val = false → (t.svc v).owner = (s.svc v).owner) ∧
      SameTables s t ∧ SameManagement s t ∧ t.outLanes = s.outLanes ∧
      (∀ v, (∀ w : SvcId, old.group.getLsbD w.val = true ↔ w = v) → (s.svc v).owner = some a →
        Claimant.loss v ∉ s.waitList →
        let claims : AlertId → Prop := fun b =>
          b ≠ a ∧ (s.alert b).state ≠ .idle ∧ (s.alert b).group.getLsbD v.val = true
        ((∀ b, ¬claims b) → (t.svc v).owner = none ∧ (t.svc v).slot = none ∧
          (s.laneUp v = true → (t.svc v).state = .returning ∧ (t.svc v).kind = some .alert ∧
            (t.svc v).backstop = some (deadlineFor s.now (s.svc v).cfg.returnWindow)) ∧
          (s.laneUp v = false → (s.svc v).cfg.lossClip = none → (t.svc v).state = .network ∧
            ∀ r, (s.route r).state = .active → (s.route r).service = some v → (t.svc v).dark = true)) ∧
        (∀ b, claims b → (∀ c, c ≠ b → claims c → (s.alert b).rank < (s.alert c).rank) →
          (t.svc v).owner = some b ∧ (t.svc v).insertMark = true ∧ (t.svc v).state = (s.svc v).state ∧
          ∀ r j, (s.route r).state = .active → (s.route r).service = some v → (s.alert b).slot = some j →
            (t.svc v).slot = some j))
    (x.cls = 0 → old.state ≠ .idle → ¬BetweenTransfers s →
      ∃ t, exec (.alertOff x a.val) s = .next t ∧ ended t ∧ t.lastResult = some ⟨.ok, 0, []⟩ ∧
        t.alerts = s.alerts.put a { old with state := .idle, deadline := none, slot := none }) ∧
    (∀ d, Due.lease a ∈ s.due → old.state ≠ .idle → old.deadline = some d → (s.now - d).toNat < 2 ^ 31 →
      ¬BetweenTransfers s → ∃ t, exec (.leaseLapse a) s = .next t ∧ ended t ∧ t.lastResult = s.lastResult ∧
        t.alerts = s.alerts.put a { old with state := .idle, deadline := none, slot := none, lapsed := true }) ∧
    (x.cls = 0 → old.state = .idle → exec (.alertOff x a.val) s = .next (s.codeAnswered .wrongState)) ∧
    (x.cls ≠ 0 → exec (.alertOff x a.val) s = .next (s.codeAnswered .guarded)) ∧
    (8 ≤ i → exec (.alertOff x i) s = .next (s.codeAnswered .badIndex))

/-- A skipped fault reported on a live channel's slot raises its consecutive fault count, and an ACTIVE channel whose
count has reached 4 goes STALLED with STALL_SEEN. A cell written into the slot of a live channel clears the count and
makes a STALLED channel ACTIVE; STALL_SEEN stays. -/
def Obligations.FaultsStallAndCellsRecover : Prop :=
  ∀ (a : AlertId) (s : State) (old : Alert), old = s.alert a → old.state ≠ .idle →
    let stalls := old.state = .active ∧ 4 ≤ min (old.faults + 1) 65535
    alertFault a s = { s with alerts := s.alerts.put a { old with
      faults := min (old.faults + 1) 65535, state := if stalls then .stalled else old.state
      stallSeen := if stalls then true else old.stallSeen } } ∧
    alertWritten a s = { s with alerts := s.alerts.put a { old with faults := 0, state := .active } }

/-! ### Management -/

/-- The oldest control cell taken in is answered by one response cell at the end of its channel's queue. A malformed
cell is answered with no results, with the class bound kept at its intake (the model's reading, log entry 21); the one record POINT sets the cursor and is answered OK; any other cell is answered
with as many results as it has records. The payload bytes beyond the response's length are 0, which is the model's choice
(log entry 46). Nothing waits in an empty intake. -/
def Obligations.ControlCellIsAnswered : Prop :=
  ∀ (h : ChannelId) (cls : Fin 4) (cell : Cell) (rest : List Intake) (s : State),
    let response : List Byte → Channel → Channel := fun bytes c => { c with
      queue := c.queue ++ [
        { tag := c.respTag, kind := .response, continuity := c.continuity, unitStart := false, splicePoint := false,
          essential := false, discontinuity := false, rs := none, ps := none, length := bytes.length
          payload := bytes ++ List.replicate (240 - bytes.length) 0 }]
      continuity := c.continuity + 1 }
    let twoBytes : Nat → List Byte := fun n => [BitVec.ofNat 8 (n / 256), BitVec.ofNat 8 n]
    (s.intake = [] → exec .controlCellExecute s = .next s) ∧
    (s.intake = ⟨h, cls, cell⟩ :: rest →
      (parseControl cell = none → exec .controlCellExecute s = .next { s with
        intake := rest
        channels := s.channels.put h (response
          (twoBytes (if cell.length < 2 then 0 else field cell.payload 0 2) ++ twoBytes (s.channel h).overrun ++
            [0, BitVec.ofNat 8 cls.val]) (s.channel h)) }) ∧
      (∀ p t i, parseControl cell = some p → p.records = [⟨2, Table.code t, i, []⟩] → i < t.entries s →
        exec .controlCellExecute s = .next ({ s with
          intake := rest
          channels := s.channels.put h (response
            (twoBytes p.seq ++ twoBytes (s.channel h).overrun ++ [1, BitVec.ofNat 8 cls.val, 0, 0, 0])
            { s.channel h with cursor := some (t, i) }) }.codeAnswered .ok)) ∧
      (∀ p, parseControl cell = some p → ∃ t c, exec .controlCellExecute s = .next t ∧ t.intake = rest ∧
        (t.channel h).queue.getLast? = some c ∧ c.kind = .response ∧ c.tag = (t.channel h).respTag ∧
        c.payload.getD 4 0 = BitVec.ofNat 8 p.records.length ∧ c.payload.getD 5 0 = BitVec.ofNat 8 cls.val))

/-- READ of one or more entries from an index of the table on returns their images, as many as were asked for, exist
and fit, and changes nothing but the record's result: FULL when none fits, BAD_INDEX when fewer exist than were asked
for, also when it is cut short for want of room as well, which is the model's reading (log entry 29). READ of SLOT returns one entry, here with no reader left to carry. -/
def Obligations.ReadReturnsTheImages : Prop :=
  ∀ (x : Ctx) (t : Table) (i : Nat) (n first : Byte) (s : State),
    i < t.entries s → n ≠ 0 →
    (t ≠ .slot → (∀ e, (s.event e).clips.length ≤ 8) →
      let m := min (min n.toNat (t.entries s - i)) (x.room / t.imageBytes)
      exec (.read x (Table.code t) i [n]) s = .next (s.answered
        (if m = 0 then ⟨.full, 0, []⟩
        else ⟨if t.entries s < i + n.toNat then .badIndex else .ok, m,
          (List.range m).flatMap (fun j => imageOf s t (i + j) 0)⟩))) ∧
    (t = .slot → (∀ k : SlotId, k.val = i → (s.slot k).readers.length ≤ first.toNat) → 68 ≤ x.room →
      exec (.read x (Table.code t) i [n, first]) s =
        .next (s.answered ⟨.ok, 1, imageOf s .slot i first.toNat⟩))

/-- POINT sets the channel's cursor; GET returns the entry under it and moves it on; PUT is the WRITE of the entry under
it, with the same result, and moves it on. A GET that finds no room, or a cursor past the end, leaves it. That an absent cursor or one past the end is BAD_INDEX
whatever the field area's length, and that a PUT of the wrong length moves the cursor, is the model's reading of the
order of the checks (log entry 23). -/
def Obligations.CursorVerbsUseTheCursor : Prop :=
  ∀ (x : Ctx) (t : Table) (i : Nat) (s : State),
    let at_ : Nat → State → State := fun j u =>
      { u with channels := u.channels.put x.ch { u.channel x.ch with cursor := some (t, j) } }
    (i < t.entries s → exec (.point x (Table.code t) i) s = .next ((at_ i s).codeAnswered .ok)) ∧
    (t.entries s ≤ i → exec (.point x (Table.code t) i) s = .next (s.codeAnswered .badIndex)) ∧
    ((s.channel x.ch).cursor = none →
      (∀ bs, exec (.put x bs) s = .next (s.codeAnswered .badIndex)) ∧
      (∀ bs, exec (.get x bs) s = .next (s.codeAnswered .badIndex))) ∧
    ((s.channel x.ch).cursor = some (t, i) →
      (t ≠ .slot → i < t.entries s → t.imageBytes ≤ x.room →
        exec (.get x []) s = .next ((at_ (i + 1) s).answered ⟨.ok, 1, imageOf s t i 0⟩)) ∧
      (t ≠ .slot → i < t.entries s → x.room < t.imageBytes →
        exec (.get x []) s = .next (s.codeAnswered .full)) ∧
      (t.entries s ≤ i → ∀ bs, exec (.get x bs) s = .next (s.codeAnswered .badIndex)) ∧
      (t.writable = true → t.entries s ≤ i → ∀ bs, exec (.put x bs) s = .next (s.codeAnswered .badIndex)) ∧
      (t.writable = true → i < t.entries s → ∀ bs, bs.length ≠ t.imageBytes →
        exec (.put x bs) s = .next ((at_ (i + 1) s).codeAnswered .badField)) ∧
      (t.writable = true → i < t.entries s → ∀ bs, bs.length = t.imageBytes →
        ∃ u, exec (.write x (Table.code t) i bs) s = .next u ∧ exec (.put x bs) s = .next (at_ (i + 1) u)))

/-- WRITE in its general form is the write of the table it names, with every field at its offset in the image, most
significant byte first, and its presence bit in byte 0; what a yes/no byte other than 0 and 1 means is left open (log
entry 12). Spare bits of a mask byte are ignored, which is the model's reading (log entry 8), and so are the clip places
of an EVENT image beyond its list, which is the model's choice (log entry 44). A WRITE of INLANE at class 0 stores the clamped loss timeout. SLOT, LOG, PART and unknown table codes are
refused BAD_TABLE, an area of another length BAD_FIELD, and an index beyond the table BAD_INDEX, with nothing changed. -/
def Obligations.WriteDecodesTheImage : Prop :=
  ∀ (x : Ctx) (i : Nat) (bs : List Byte) (s : State),
    let b : Nat → Nat := fun j => (bs.getD j 0).toNat
    (bs.length = 16 → b 1 = 0 → exec (.write x 0 i bs) s = exec (.routeWriteFree x i (b 11)) s) ∧
    (bs.length = 16 → b 1 = 1 → exec (.write x 0 i bs) s = exec (.routeWriteActive x i
      { inLane := b 2, inTag := b 3 * 256 + b 4, outLane := b 5, outTag := b 6 * 256 + b 7
        allotment := b 8 * 256 + b 9, service := if b 0 % 2 = 1 then some (b 10) else none, guard := b 11 }) s) ∧
    let b2 : Nat → Nat := fun j => b j * 256 + b (j + 1)
    let b3 : Nat → Nat := fun j => b2 j * 256 + b (j + 2)
    let b4 : Nat → Nat := fun j => b3 j * 256 + b (j + 3)
    let stamp : Nat → Stamp := fun j => BitVec.ofNat 36 (b4 j * 256 + b (j + 4))
    (bs.length = 80 → exec (.write x 1 i bs) s = exec (.serviceWrite x i (b 30)
      { unitInt := b3 1, unitFrac := b2 4, preroll := b4 6, exitWindow := b4 10, returnWindow := b4 14
        seamTolerance := b3 18, leadLimit := b3 21, lateLimit := b3 24
        lossClip := if b 0 % 2 = 1 then some (b2 27) else none, guard := b 29 }) s) ∧
    (bs.length = 80 → exec (.write x 2 i bs) s = exec (.eventWrite x i
      { state := b 1, service := b 2, trigger := b 3, s := if b 0 % 2 = 1 then some (stamp 4) else none
        duration := if b 0 / 2 % 2 = 1 then some (b4 9 * 256 + b 13) else none, clipCount := b 14
        clips := (List.range (min (b 14) 8)).map (fun j => b2 (15 + 2 * j)), force := decide (b 31 % 2 = 1)
        rehearse := decide (b 31 / 2 % 2 = 1), guard := b 32 }) s) ∧
    (bs.length = 24 → exec (.write x 3 i bs) s = exec (.clipWrite x i
      { state := b 0, window := b 1, offset := b4 2, length := b3 6, c0 := stamp 9, cEnd := stamp 14
        trim := if b2 19 < 32768 then (b2 19 : Int) else (b2 19 : Int) - 65536, guard := b 21 }) s) ∧
    (bs.length = 12 → b 9 = 0 ∨ b 9 = 1 → exec (.write x 4 i bs) s = exec (.windowWrite x i
      { base := (((b 0 * 256 + b 1) * 256 + b 2) * 256 + b 3) * 256 + b 4
        length := ((b 5 * 256 + b 6) * 256 + b 7) * 256 + b 8, enabled := decide (b 9 = 1), guard := b 10 }) s) ∧
    (bs.length = 24 → b 13 = 0 ∨ b 13 = 1 → exec (.write x 6 i bs) s = exec (.alertWrite x i
      { priority := if b 0 % 2 = 1 then some (b 1) else none, group := BitVec.ofNat 64 (b4 2 * 4294967296 + b4 6)
        clip := b2 10, leaseCode := b 12, masked := decide (b 13 = 1), guard := b 23 }) s) ∧
    (bs.length = 16 → exec (.write x 7 i bs) s = exec (.counterWrite x i
      { source := ⟨b 0, b 1⟩, gate := ⟨b 2, b 3⟩, reload := b 4 * 256 + b 5, mode := b 8, target := ⟨b 9, b 10⟩
        guard := b 12 }) s) ∧
    (bs.length = 8 → exec (.write x 8 i bs) s = exec (.cuelineWrite x i
      { direction := b 0, edge := b 1, debounce := b 2, tally := ⟨b 3, b 4⟩, guard := b 7 }) s) ∧
    (bs.length = 20 → b 1 = 0 ∨ b 1 = 1 → exec (.write x 9 i bs) s = exec (.channelWrite x i
      { enabled := decide (b 1 = 1), inLane := b 2, inTag := b 3 * 256 + b 4, respLane := b 5
        respTag := b 6 * 256 + b 7, bound := b 8 }) s) ∧
    (bs.length = 8 → exec (.write x 10 i bs) s = exec (.inlaneWrite x i (b 1 * 256 + b 2)) s) ∧
    (∀ n : InLaneId, bs.length = 8 → x.cls = 0 → exec (.write x 10 n.val bs) s = .next ({ s with
      inLanes := s.inLanes.put n { s.inLane n with timeout := max 10 (min (b 1 * 256 + b 2) 1000) }
      }.codeAnswered .ok)) ∧
    (bs.length = 12 → exec (.write x 11 i bs) s = exec (.outlaneWrite x i (b 0 * 256 + b 1)) s) ∧
    (bs.length = 8 → b 0 = 0 ∨ b 0 = 1 → exec (.write x 12 i bs) s = exec (.storeWrite x i
      { fast := decide (b 0 = 1), tenureLimit := b 1, gap := b 2, dutyLimit := b 3 }) s) ∧
    (∀ code, code = 5 ∨ 13 ≤ code → exec (.write x code i bs) s = .next (s.codeAnswered .badTable)) ∧
    (∀ t : Table, t.writable = true → t.entries s ≤ i →
      exec (.write x (Table.code t) i bs) s = .next (s.codeAnswered .badIndex)) ∧
    (∀ t : Table, t.writable = true → i < t.entries s → bs.length ≠ t.imageBytes →
      exec (.write x (Table.code t) i bs) s = .next (s.codeAnswered .badField))

/-! ### Writes -/

/-- An EVENT write that passes the checks loads a FREE record as SCHEDULED, with the nominal duration given or taken
from its clips. A TIME event, after the preroll, at most 2^34 ticks off, and apart from every span in its service's
list, is put in the list by the offset of its splice time; a CUE event joins no list. -/
def Obligations.EventWriteLoads : Prop :=
  ∀ (x : Ctx) (e : EventId) (v : SvcId) (l : List ClipId) (nominal : Nat) (w : EventImg) (s : State),
    (s.event e).state = .free → w.state = 1 → w.service = v.val → (s.svc v).state ≠ .off →
    w.clips = l.map Fin.val → w.clipCount = l.length → 1 ≤ l.length → l.length ≤ 8 →
    (∀ c ∈ l, (s.clip c).state = .loaded) →
    ((w.duration = some nominal ∧ 10000 ≤ nominal) ∨ (w.duration = none ∧
      nominal = (feedTotal (s.svc v).cfg.unitInt (s.svc v).cfg.unitFrac (l.map s.clip)).toNat)) →
    nominal ≤ 2 ^ 34 →
    let stored : Trigger → Option Stamp → Event := fun trigger splice =>
      { state := .scheduled, service := v, trigger := trigger, s := splice, duration := w.duration, clips := l
        force := w.force, rehearse := w.rehearse, guard := max x.cls (Fin.ofNat 4 (min w.guard 3)), nominal := nominal
        outcome := none, flags := {}, slot := none, px := none, tr := none, retPs := none, seam := none
        inserted := 0, shed := 0 }
    (w.trigger = 1 → exec (.eventWrite x e.val w) s =
      .next ({ s with events := s.events.put e (stored .cue none) }.codeAnswered .ok)) ∧
    (∀ splice last : Stamp, w.trigger = 0 → w.s = some splice → (s.svc v).lastPs = some last →
      splice ≠ last + BitVec.ofNat 36 (s.svc v).cfg.preroll →
      (splice - (last + BitVec.ofNat 36 (s.svc v).cfg.preroll)).toNat < 2 ^ 35 →
      (splice - last).toNat ≤ 2 ^ 34 →
      let ends : Stamp → Nat → Int := fun a n =>
        (a - last).toInt + ((n + (s.svc v).cfg.exitWindow + (s.svc v).cfg.returnWindow : Nat) : Int)
      (∀ y ∈ s.list v, ∀ other, (s.event y).s = some other →
        ends splice nominal ≤ (other - last).toInt ∨ ends other (s.event y).nominal ≤ (splice - last).toInt) →
      ∃ before after, s.list v = before ++ after ∧
        (∀ y ∈ before, ∀ other, (s.event y).s = some other → (other - last).toInt ≤ (splice - last).toInt) ∧
        (∀ y other, after.head? = some y → (s.event y).s = some other →
          (splice - last).toInt < (other - last).toInt) ∧
        exec (.eventWrite x e.val w) s = .next ({ s with
          events := s.events.put e (stored .time (some splice))
          sched := s.sched.put v (before ++ e :: after) }.codeAnswered .ok))

/-- A CLIP write that passes the checks loads or frees an unlocked record, and is refused BUSY while a CUEING or ACTIVE
event names the clip or a slot that is not FREE reads it. A WINDOW write stores base, length and enable while no clip of
the window is read and every LOADED one fits. -/
def Obligations.ClipAndWindowWritesStore : Prop :=
  ∀ (x : Ctx) (s : State),
    (∀ (c : ClipId) (w : ClipImg), (s.clip c).state = .free ∨ x.cls ≤ (s.clip c).guard →
      let locked := (∃ e, ((s.event e).state = .cueing ∨ (s.event e).state = .active) ∧ c ∈ (s.event e).clips) ∨
        ∃ k, (s.slot k).owner.isSome ∧ ((s.slot k).clips = .looped c ∨ ∃ l, (s.slot k).clips = .list l ∧ c ∈ l)
      let guard := max x.cls (Fin.ofNat 4 (min w.guard 3))
      (locked → exec (.clipWrite x c.val w) s = .next (s.codeAnswered .busy)) ∧
      (¬locked → w.state = 0 → exec (.clipWrite x c.val w) s = .next ({ s with
        clips := s.clips.put c
          { state := .free, window := 0, offset := 0, length := 1, c0 := 0, cEnd := 0, trim := 0, guard := guard }
        }.codeAnswered .ok)) ∧
      (∀ k : WindowId, ¬locked → w.state = 1 → w.window = k.val → w.offset % 256 = 0 →
        w.offset < (s.window k).length → 1 ≤ w.length → w.length ≤ 2 ^ 23 → -16384 ≤ w.trim → w.trim ≤ 16383 →
        (w.cEnd - w.c0).toNat < 2 ^ 35 → w.length * 256 ≤ (s.window k).length →
        exec (.clipWrite x c.val w) s = .next ({ s with
          clips := s.clips.put c
            { state := .loaded, window := k, offset := w.offset, length := w.length, c0 := w.c0, cEnd := w.cEnd
              trim := w.trim, guard := guard } }.codeAnswered .ok))) ∧
    (∀ (k : WindowId) (j : Nat) (w : WindowImg), x.cls ≤ (s.window k).guard →
      20 ≤ j → j ≤ 31 → w.length = 2 ^ j → w.base % w.length = 0 → w.base + w.length ≤ 2 ^ 36 →
      (∀ c, (s.clip c).state = .loaded → (s.clip c).window = k →
        (s.clip c).offset < w.length ∧ (s.clip c).length * 256 ≤ w.length ∧
        ∀ i, (s.slot i).owner = none ∨
          ((s.slot i).clips ≠ .looped c ∧ ∀ l, (s.slot i).clips = .list l → c ∉ l)) →
      exec (.windowWrite x k.val w) s = .next ({ s with
        windows := s.windows.put k
          { base := BitVec.ofNat 36 w.base, length := w.length, enabled := w.enabled
            guard := max x.cls (Fin.ofNat 4 (min w.guard 3)) } }.codeAnswered .ok))

/-- An ALERT write that passes the checks stores priority, group, clip, lease code and mask of an IDLE channel, and is
refused BUSY for a live one. A COUNTER write stores source, gate, reload, mode and target of a STOPPED counter and keeps
its count, and is refused BUSY for a RUNNING one; an alert target needs a stored guard of 0. -/
def Obligations.AlertAndCounterWritesStore : Prop :=
  ∀ (x : Ctx) (s : State),
    (∀ (a : AlertId) (w : AlertImg), x.cls ≤ (s.alert a).guard →
      ((s.alert a).state ≠ .idle → exec (.alertWrite x a.val w) s = .next (s.codeAnswered .busy)) ∧
      (∀ c : ClipId, (s.alert a).state = .idle → w.group ≠ 0 → w.clip = c.val → (s.clip c).state = .loaded →
        w.leaseCode ≤ 7 →
        (∀ p, w.priority = some p → p < 8 ∧ ∀ b, b ≠ a → (s.alert b).priority ≠ some (Fin.ofNat 8 p)) →
        exec (.alertWrite x a.val w) s = .next ({ s with
          alerts := s.alerts.put a { s.alert a with
            priority := w.priority.map (Fin.ofNat 8), group := w.group, clip := c
            leaseCode := Fin.ofNat 8 w.leaseCode, masked := w.masked
            guard := max x.cls (Fin.ofNat 4 (min w.guard 3)) } }.codeAnswered .ok))) ∧
    (∀ (c : CounterId) (w : CounterImg) (source : ClockSource) (gate : Gate) (target : Target),
      x.cls ≤ (s.counter c).guard →
      let guard := max x.cls (Fin.ofNat 4 (min w.guard 3))
      ((s.counter c).running = true → exec (.counterWrite x c.val w) s = .next (s.codeAnswered .busy)) ∧
      ((s.counter c).running = false → w.source = source.form → w.gate = gate.form → w.target = target.form →
        (source = .expiry → c ≠ 0) → 1 ≤ w.reload → w.reload ≤ 65535 → w.mode ≤ 1 →
        (∀ e, target = .event e → x.cls ≤ (s.event e).guard) →
        (∀ a, target = .alertOn a ∨ target = .alertRenew a → guard = 0) →
        exec (.counterWrite x c.val w) s = .next ({ s with
          counters := s.counters.put c { s.counter c with
            source := source, gate := gate, reload := w.reload
            mode := if w.mode = 0 then .oneShot else .periodic, target := target, guard := guard }
          }.codeAnswered .ok)))

/-- A CUELINE write stores the line's settings; a line turned OUT, or left OUT, drives its tally source at once, and a
line turned IN takes its level afresh at the next tick, and shows its last driven level as the sampled one until then,
which is the model's choice (log entry 45). CHANNEL, INLANE, OUTLANE and STORE writes need class 0: they
store a channel's pairs and bound, dropping its queued responses if the response pair changes, the clamped loss timeout,
a capacity that the allotments fit, and the clamped port settings, after which an IDLE port makes its test. -/
def Obligations.SettingsWritesStore : Prop :=
  ∀ (x : Ctx) (s : State),
    (∀ (n : LineId) (w : CueLineImg) (d : Direction) (e : EdgeSelect) (f : Tally), x.cls ≤ (s.line n).guard →
      w.direction = d.code → w.edge = e.code → w.tally = f.form → w.debounce ≤ 255 →
      let stored : CueLine := { s.line n with
        direction := d, edge := e, debounce := w.debounce, tally := f
        guard := max x.cls (Fin.ofNat 4 (min w.guard 3)) }
      (d = .input → (s.line n).direction = .input → exec (.cuelineWrite x n.val w) s =
        .next ({ s with lines := s.lines.put n stored }.codeAnswered .ok)) ∧
      (d = .input → (s.line n).direction = .output → exec (.cuelineWrite x n.val w) s = .next
        ({ s with lines := s.lines.put n { stored with pending := 0, reinit := true } }.codeAnswered .ok)) ∧
      (d = .output → ∃ counters due, exec (.cuelineWrite x n.val w) s = .next ({ s with
        lines := s.lines.put n { stored with
          pending := 0, reinit := false, sampled := tallyLevel s f, debounced := tallyLevel s f }
        counters := counters, due := due }.codeAnswered .ok))) ∧
    (x.cls = 0 →
      (∀ (h : ChannelId) (w : ChannelImg) (new : Channel),
        w.inLane ≤ 3 → w.inTag ≤ 4094 → w.respLane ≤ 1 → w.respTag ≤ 4094 → w.bound ≤ 3 →
        new = { s.channel h with
          enabled := w.enabled, inLane := Fin.ofNat 4 w.inLane, inTag := BitVec.ofNat 12 w.inTag
          respLane := Fin.ofNat 2 w.respLane, respTag := BitVec.ofNat 12 w.respTag, bound := Fin.ofNat 4 w.bound
          queue := if (s.channel h).respLane = Fin.ofNat 2 w.respLane ∧
              (s.channel h).respTag = BitVec.ofNat 12 w.respTag then (s.channel h).queue else [] } →
        (w.enabled = true →
          (∀ g, g ≠ h → (s.channel g).enabled = true →
            ¬((s.channel g).inLane = new.inLane ∧ (s.channel g).inTag = new.inTag) ∧
            ¬((s.channel g).respLane = new.respLane ∧ (s.channel g).respTag = new.respTag)) ∧
          (∀ r, (s.route r).state = .active →
            ¬((s.route r).outLane = new.respLane ∧ (s.route r).outTag = new.respTag))) →
        exec (.channelWrite x h.val w) s =
          .next ({ s with channels := s.channels.put h new }.codeAnswered .ok)) ∧
      (∀ (n : InLaneId) (m : Nat), exec (.inlaneWrite x n.val m) s = .next ({ s with
        inLanes := s.inLanes.put n { s.inLane n with timeout := max 10 (min m 1000) } }.codeAnswered .ok)) ∧
      (∀ (n : OutLaneId) (k : Nat), 16 ≤ k → k ≤ 1024 → allotted s n + 1 ≤ k →
        exec (.outlaneWrite x n.val k) s = .next ({ s with
          outLanes := s.outLanes.put n { s.outLane n with capacity := k } }.codeAnswered .ok)) ∧
      (∀ w : StoreImg, exec (.storeWrite x 0 w) s = .next ({ s with port := { s.port with
        fast := w.fast, tenureLimit := max 1 (min w.tenureLimit 8), gap := min w.gap 15
        dutyLimit := max 1 (min w.dutyLimit 255)
        phase := if s.port.phase = Phase.idle ∧ (s.port.resume ∨
            (s.port.duty < max 1 (min w.dutyLimit 255) ∧ ∃ k, (s.slot k).wants = true)) then .requesting
          else s.port.phase } }.codeAnswered .ok))) ∧
    (x.cls ≠ 0 →
      (∀ (h : ChannelId) w, exec (.channelWrite x h.val w) s = .next (s.codeAnswered .guarded)) ∧
      (∀ (n : InLaneId) m, exec (.inlaneWrite x n.val m) s = .next (s.codeAnswered .guarded)) ∧
      (∀ (n : OutLaneId) k, exec (.outlaneWrite x n.val k) s = .next (s.codeAnswered .guarded)) ∧
      (∀ w, exec (.storeWrite x 0 w) s = .next (s.codeAnswered .guarded)))

/-! ### Actions -/

/-- SPLICE_NOW on a SCHEDULED event of a NETWORK service with its lane UP and its clips LOADED cues it: it leaves its
list, its splice time is unset, and it takes the lowest FREE slot or waits at the tail of the wait list. On a service
that is switching or inserting the event goes MISSED with BUSY_SERVICE, or with ALERT under an alert. The result is OK;
an event in another state is refused WRONG_STATE, one of a higher guard GUARDED. -/
def Obligations.SpliceNowCues : Prop :=
  ∀ (x : Ctx) (e : EventId) (v : SvcId) (s : State), (s.event e).service = v →
    (x.cls ≤ (s.event e).guard → (s.event e).state = .scheduled →
      (∀ c ∈ (s.event e).clips, (s.clip c).state = .loaded) →
      let sched := s.sched.put v ((s.list v).filter (fun y => decide (y ≠ e)))
      let cueing : Service := { s.svc v with state := .cueing, event := some e, exitPending := false }
      ((s.svc v).state = .network → s.laneUp v = true →
        (∀ k, (s.slot k).owner = none → (∀ j, j < k → (s.slot j).owner.isSome) →
          ∃ t, exec (.spliceNow x e.val) s = .next (t.codeAnswered .ok) ∧ Followed
            { s with
              sched := sched, services := s.services.put v cueing
              events := s.events.put e { s.event e with state := .cueing, s := none, slot := some k }
              slots := s.slots.put k { Slot.reset with
                owner := some (.event e), clips := .list (s.event e).clips
                unitInt := (s.svc v).cfg.unitInt, unitFrac := (s.svc v).cfg.unitFrac } } t) ∧
        ((∀ k, (s.slot k).owner.isSome) →
          ∃ t, exec (.spliceNow x e.val) s = .next (t.codeAnswered .ok) ∧ Followed
            { s with
              sched := sched, services := s.services.put v cueing
              events := s.events.put e { s.event e with state := .cueing, s := none }
              waitList := s.waitList ++ [.event e] } t)) ∧
      ((s.svc v).state ≠ .network → (s.svc v).state ≠ .off →
        let underAlert := (s.svc v).state = .alert ∨ ((s.svc v).state = .returning ∧ (s.svc v).kind = some .alert)
        let missed : Event := { s.event e with
          state := .missed, outcome := some .missed, slot := none
          flags :=
            if underAlert then { (s.event e).flags with alert := true }
            else { (s.event e).flags with busyService := true } }
        ∃ t, exec (.spliceNow x e.val) s = .next (t.codeAnswered .ok) ∧ Followed
          { s with
            sched := sched, events := s.events.put e missed, log := s.log ++ [entryOf e missed .missed s.now] } t)) ∧
    (x.cls ≤ (s.event e).guard → (s.event e).state ≠ .scheduled →
      exec (.spliceNow x e.val) s = .next (s.codeAnswered .wrongState)) ∧
    ((s.event e).guard < x.cls → exec (.spliceNow x e.val) s = .next (s.codeAnswered .guarded))

/-- CANCEL closes a SCHEDULED event as CANCELLED and takes it from its list; it ends the insertion of an ACTIVE one
early, with the pending outcome CANCELLED and TRUNCATED, the INSERTING service RETURNING and the slot's fetching stopped;
an ACTIVE event with outcome CANCELLED is left as it is. It closes a CUEING event as CANCELLED: its service goes NETWORK,
and its claim on the wait list or its slot is given up. A fetch of that slot is abandoned, or dropped if it waits to be
resumed; between two bursts it is either abandoned or dropped at once, here with the tenure's end: which of the two is
open (log entry 42). The result is OK; an event that is not live is refused
WRONG_STATE, one of a higher guard GUARDED. -/
def Obligations.CancelCloses : Prop :=
  ∀ (x : Ctx) (e : EventId) (v : SvcId) (s : State), (s.event e).service = v →
    (x.cls ≤ (s.event e).guard →
      ((s.event e).state = .scheduled →
        let closed : Event := { s.event e with state := .cancelled, outcome := some .cancelled, slot := none }
        ∃ t, exec (.cancel x e.val) s = .next (t.codeAnswered .ok) ∧ Followed
          { s with
            sched := s.sched.put v ((s.list v).filter (fun y => decide (y ≠ e)))
            events := s.events.put e closed, log := s.log ++ [entryOf e closed .cancelled s.now] } t) ∧
      (∀ k, (s.event e).state = .active → (s.event e).outcome ≠ some .cancelled → (s.event e).slot = some k →
        (s.svc v).state = .inserting → (s.slot k).fetchEnd = .none →
        ∃ t, exec (.cancel x e.val) s = .next (t.codeAnswered .ok) ∧ Followed
          { s with
            events := s.events.put e { s.event e with
              outcome := some .cancelled, flags := { (s.event e).flags with truncated := true } }
            services := s.services.put v { s.svc v with
              state := .returning, returnRef := none
              returnFlags := { (s.svc v).returnFlags with truncated := true } }
            slots := s.slots.put k { s.slot k with fetchEnd := .stopped } } t) ∧
      ((s.event e).state = .active → (s.event e).outcome = some .cancelled → Settled s →
        exec (.cancel x e.val) s = .next (s.codeAnswered .ok)) ∧
      ((s.event e).state = .cueing →
        let closed : Event := { s.event e with state := .cancelled, outcome := some .cancelled, slot := none }
        let left : State := { s with
          events := s.events.put e closed, log := s.log ++ [entryOf e closed .cancelled s.now]
          services := s.services.put v (backInNetwork (s.svc v)) }
        let leaves : State → Prop := fun u =>
          ∃ t, exec (.cancel x e.val) s = .next (t.codeAnswered .ok) ∧ Followed u t
        ((s.event e).slot = none →
          leaves { left with waitList := s.waitList.filter (fun y => decide (y ≠ .event e)) }) ∧
        (∀ k, (s.event e).slot = some k → (s.slot k).readers = [] → s.waitList = [] →
          let freed : State := { left with slots := s.slots.put k Slot.reset }
          ((∀ f, s.port.fetch = some f → f.slot ≠ k) → leaves freed) ∧
          (∀ f, s.port.fetch = some f → f.slot = k → s.port.abandon = false →
            (s.port.resume = true → s.port.phase ≠ .owner →
              leaves { freed with port := { s.port with fetch := none, buffer := [], resume := false } }) ∧
            (s.port.resume = false → f.burst = 0 → f.beat = none → f.retry = 0 →
              leaves { freed with port := { s.port with abandon := true } }) ∧
            (s.port.resume = false → f.burst ≠ 0 → s.port.phase = .owner → s.port.tenureLimit ≤ s.port.tenure →
              1 ≤ s.port.gap →
              leaves { freed with draws := s.draws + 1, port := { s.port with abandon := true } } ∨
                leaves { freed with draws := s.draws + 1, port := releasingPort s.port })))) ∧
      ((s.event e).state ≠ .scheduled → (s.event e).state ≠ .cueing → (s.event e).state ≠ .active →
        exec (.cancel x e.val) s = .next (s.codeAnswered .wrongState))) ∧
    ((s.event e).guard < x.cls → exec (.cancel x e.val) s = .next (s.codeAnswered .guarded))

/-- TAKE_LOG removes the oldest entry and returns it, and frees the event record it names; it is refused GUARDED by that
record's guard, FULL without room, and OK without an entry when the log is empty. Its index is ignored. -/
def Obligations.TakeLogFreesTheRecord : Prop :=
  ∀ (x : Ctx) (i : Nat) (s : State),
    (s.log = [] → exec (.takeLog x i) s = .next (s.codeAnswered .ok)) ∧
    (∀ y rest, s.log = y :: rest →
      ((s.event y.event).guard < x.cls → exec (.takeLog x i) s = .next (s.codeAnswered .guarded)) ∧
      (x.cls ≤ (s.event y.event).guard → x.room < 48 → exec (.takeLog x i) s = .next (s.codeAnswered .full)) ∧
      (x.cls ≤ (s.event y.event).guard → 48 ≤ x.room → exec (.takeLog x i) s = .next ({ s with
        log := rest
        events := s.events.put y.event
          { state := .free, service := 0, trigger := .time, s := none, duration := none, clips := [0], force := false,
            rehearse := false, guard := 3, nominal := 0, outcome := none, flags := {}, slot := none, px := none,
            tr := none, retPs := none, seam := none, inserted := 0, shed := 0 } }.answered
        ⟨.ok, 1, logImage y⟩)))

/-- CLEAR of a mask that names items of the entry clears those items and nothing else, in any state of the entry. An
entry of a lower guard than the class, and an INLANE, OUTLANE, CHANNEL or PART entry at any class but 0, is refused
GUARDED, whatever the mask; a mask that names none of the table's items, or more than it has, is refused BAD_FIELD once
the guard admits it: that order is the model's reading (log entry 24). A table without items and an area that is not one
byte are refused BAD_FIELD, an index beyond the table BAD_INDEX, an unknown table BAD_TABLE. -/
def Obligations.ClearTouchesTheNamedItems : Prop :=
  ∀ (x : Ctx) (m : Byte) (s : State),
    let off : Nat → Bool → Bool := fun bit b => b && !m.getLsbD bit
    let zero : Nat → Nat → Nat := fun bit n => if m.getLsbD bit then 0 else n
    let refused : Nat → Nat → Code → Prop := fun table i c =>
      exec (.clear x table i [m]) s = .next (s.codeAnswered c)
    (∀ v : SvcId, ((s.svc v).cfg.guard < x.cls → refused 1 v.val .guarded) ∧
      (x.cls ≤ (s.svc v).cfg.guard →
        (m = 0 ∨ 32 ≤ m.toNat → refused 1 v.val .badField) ∧
        (m ≠ 0 → m.toNat < 32 →
          exec (.clear x 1 v.val [m]) s = .next ({ s with services := s.services.put v { s.svc v with
            straySeen := off 0 (s.svc v).straySeen, slipped := off 1 (s.svc v).slipped, dark := off 2 (s.svc v).dark
            strayCount := zero 3 (s.svc v).strayCount, slipCount := zero 4 (s.svc v).slipCount }
            }.codeAnswered .ok)))) ∧
    (∀ a : AlertId, ((s.alert a).guard < x.cls → refused 6 a.val .guarded) ∧
      (x.cls ≤ (s.alert a).guard →
        (m = 0 ∨ 8 ≤ m.toNat → refused 6 a.val .badField) ∧
        (m ≠ 0 → m.toNat < 8 →
          exec (.clear x 6 a.val [m]) s = .next ({ s with alerts := s.alerts.put a { s.alert a with
            lapsed := off 0 (s.alert a).lapsed, stallSeen := off 1 (s.alert a).stallSeen
            blocked := off 2 (s.alert a).blocked } }.codeAnswered .ok)))) ∧
    (∀ r : RouteId, ((s.route r).guard < x.cls → refused 0 r.val .guarded) ∧
      (x.cls ≤ (s.route r).guard →
        (m ≠ 1 → refused 0 r.val .badField) ∧
        (m = 1 → exec (.clear x 0 r.val [m]) s = .next
          ({ s with routes := s.routes.put r { s.route r with overflow := 0 } }.codeAnswered .ok)))) ∧
    (∀ (n : InLaneId) (o : OutLaneId) (h : ChannelId),
      (x.cls ≠ 0 → refused 10 n.val .guarded ∧ refused 11 o.val .guarded ∧ refused 9 h.val .guarded ∧
        refused 14 0 .guarded) ∧
      (x.cls = 0 → m ≠ 1 → refused 10 n.val .badField ∧ refused 11 o.val .badField ∧ refused 9 h.val .badField ∧
        refused 14 0 .badField) ∧
      (x.cls = 0 → m = 1 →
        exec (.clear x 10 n.val [m]) s = .next
          ({ s with inLanes := s.inLanes.put n { s.inLane n with unrouted := 0 } }.codeAnswered .ok) ∧
        exec (.clear x 11 o.val [m]) s = .next
          ({ s with outLanes := s.outLanes.put o { s.outLane o with overflow := 0 } }.codeAnswered .ok) ∧
        exec (.clear x 9 h.val [m]) s = .next
          ({ s with channels := s.channels.put h { s.channel h with overrun := 0 } }.codeAnswered .ok) ∧
        exec (.clear x 14 0 [m]) s = .next ({ s with storeFaultSeen := false }.codeAnswered .ok))) ∧
    (∀ (t : Table) (i : Nat), i < t.entries s →
      (t = .event ∨ t = .clip ∨ t = .window ∨ t = .slot ∨ t = .counter ∨ t = .cueline ∨ t = .store ∨ t = .log →
        refused (Table.code t) i .badField) ∧
      (∀ bs : List Byte, bs.length ≠ 1 →
        exec (.clear x (Table.code t) i bs) s = .next (s.codeAnswered .badField))) ∧
    (∀ (t : Table) (i : Nat), t.entries s ≤ i → refused (Table.code t) i .badIndex) ∧
    (∀ code i, 15 ≤ code → refused code i .badTable)

/-- RESTART at class 0 abandons the work in flight of every block and keeps the loaded tables: CUEING and ACTIVE events
close as CANCELLED, in index order, an ACTIVE one with TRUNCATED; services that are not OFF are in NETWORK without an
activity, one taken from an activity with its network mark set, and dark if its lane is not UP; every slot is FREE; the
port has no fetch, and stays in its phase, but that an OWNER port between two transfers of a cell may end its tenure:
which of the two is open (log entry 42); an IN line is as it was, an OUT line shows the level of its tally source; alert channels are IDLE and counters STOPPED, with the clock events that wait for them dropped (the
model's reading, log entry 27). Which services go dark, those taken from an activity with a lane that is not UP and
NETWORK ones with a waiting claim, is the model's reading too (log entry 20). Any other class is refused GUARDED,
any index but 0 BAD_INDEX. -/
def Obligations.RestartKeepsTheTables : Prop :=
  ∀ (x : Ctx) (s : State),
    (∀ i, i ≠ 0 → exec (.restart x i) s = .next (s.codeAnswered .badIndex)) ∧
    (x.cls ≠ 0 → exec (.restart x 0) s = .next (s.codeAnswered .guarded)) ∧
    (x.cls = 0 →
      let ends : EventId → Bool := fun e => decide ((s.event e).state = .cueing ∨ (s.event e).state = .active)
      let closed : EventId → Event := fun e => { s.event e with
        state := .cancelled, outcome := some .cancelled, slot := none
        flags := if (s.event e).state = .active then { (s.event e).flags with truncated := true }
          else (s.event e).flags }
      let idled : SvcId → Service := fun v => { s.svc v with
        kind := none, event := none, slot := none, owner := none, backstop := none, returnRef := none
        exitPending := false, returnPending := false, returnFlags := ⟨false, false, false⟩, lossWaiting := false
        shedLevel := 0, shedPattern := 0, lateness := 0 }
      let dropped : Port := { s.port with fetch := none, buffer := [], resume := false, abandon := false }
      ∃ t, exec (.restart x 0) s = .next (t.codeAnswered .ok) ∧
        t = { s with
          services := t.services, events := t.events, alerts := t.alerts, counters := t.counters, lines := t.lines
          outLanes := t.outLanes, slots := Vector.replicate 16 Slot.reset, waitList := []
          port := t.port, draws := t.draws
          due := s.due.filter (fun d => !d.isClock)
          log := s.log ++ ((List.finRange 256).filter ends).map (fun e => entryOf e (closed e) .cancelled s.now) } ∧
        (∀ e, t.event e = if ends e then closed e else s.event e) ∧
        (∀ v, t.svc v =
          if (s.svc v).state = .off then idled v
          else if (s.svc v).state = .network then { idled v with dark := (s.svc v).dark || (s.svc v).lossWaiting }
          else { idled v with
            state := .network, networkMark := true, dark := (s.svc v).dark || !s.laneUp v }) ∧
        (∀ a, t.alert a = { s.alert a with state := .idle, deadline := none, slot := none }) ∧
        (∀ c, t.counter c = { s.counter c with running := false }) ∧
        (∀ n, t.outLane n = { s.outLane n with held := Vector.replicate 64 false }) ∧
        (∀ n, t.line n = if (s.line n).direction = .input then s.line n
          else { s.line n with
            sampled := tallyLevel t (s.line n).tally, debounced := tallyLevel t (s.line n).tally }) ∧
        (¬BetweenTransfers s → t.port = dropped ∧ t.draws = s.draws) ∧
        (t.port = dropped ∨ t.port = { dropped with
          phase := if s.port.gap = 0 then .idle else .releasing, gapCount := s.port.gap }))

/-- No command but CLEAR, a control cell that may carry a CLEAR, and power-on reset clears a sticky flag. -/
def Obligations.StickyFlagsStaySet : Prop :=
  ∀ (c : Instr) (s t : State), mayClear c = false → exec c s = .next t → FlagsKept s t
end

