-- ==== Sys2Proof/Laws/Tables.lean ====
section
/-!
SUPPORT. Tables of fixed length: a read after a write, and what the searches find.
-/
namespace Sys2Proof

variable {α : Type} {n : Nat}

@[simp] theorem Tbl.get_put_self (t : Tbl α n) (i : Fin n) (x : α) : (t.put i x).get i = x := by
  simp [Tbl.get, Tbl.put]

theorem Tbl.get_put_ne (t : Tbl α n) {i j : Fin n} (h : j ≠ i) (x : α) : (t.put i x).get j = t.get j := by
  have : i.val ≠ j.val := fun e => h (Fin.ext e.symm)
  simp [Tbl.get, Tbl.put, this]

theorem Tbl.get_put (t : Tbl α n) (i j : Fin n) (x : α) :
    (t.put i x).get j = if j = i then x else t.get j := by
  by_cases h : j = i
  · subst h; simp
  · simp [h, Tbl.get_put_ne t h]

@[simp] theorem Tbl.put_put (t : Tbl α n) (i : Fin n) (x y : α) : (t.put i x).put i y = t.put i y := by
  simp [Tbl.put]

@[simp] theorem Tbl.put_get (t : Tbl α n) (i : Fin n) : t.put i (t.get i) = t := by
  simp [Tbl.get, Tbl.put]

@[simp] theorem Tbl.get_replicate (x : α) (i : Fin n) : Tbl.get (Vector.replicate n x) i = x := by
  simp [Tbl.get]

@[simp] theorem Tbl.get_ofFn (f : Fin n → α) (i : Fin n) : Tbl.get (Vector.ofFn f) i = f i := by
  simp [Tbl.get]

@[simp] theorem Tbl.get_map {β : Type} (f : α → β) (t : Tbl α n) (i : Fin n) : Tbl.get (Vector.map f t) i = f (t.get i) := by
  simp [Tbl.get]

/-- Two tables with the same entries are the same table. -/
theorem Tbl.ext_get {t u : Tbl α n} (h : ∀ i, t.get i = u.get i) : t = u := by
  apply Vector.ext
  intro i hi
  exact h ⟨i, hi⟩

theorem Tbl.mem_idxFrom (p : Fin n → α → Bool) :
    ∀ (l : List α) (b : Nat) (h : b + l.length ≤ n) (j : Fin n),
      j ∈ Tbl.idxFrom p l b h ↔ b ≤ j.val ∧ ∃ x, l[j.val - b]? = some x ∧ p j x = true := by
  intro l
  induction l with
  | nil => intro b h j; simp [Tbl.idxFrom]
  | cons a l ih =>
    intro b h j
    have hl : b + 1 + l.length ≤ n := by simp only [List.length_cons] at h; omega
    have step : (b + 1 ≤ j.val ∧ ∃ x, l[j.val - (b + 1)]? = some x ∧ p j x = true) ↔
        (b + 1 ≤ j.val ∧ ∃ x, (a :: l)[j.val - b]? = some x ∧ p j x = true) := by
      constructor <;> rintro ⟨hb, x, hx, hp⟩ <;> refine ⟨hb, x, ?_, hp⟩ <;>
        (have e : j.val - b = (j.val - (b + 1)) + 1 := by omega) <;> simp_all
    by_cases hj : j.val = b
    · have hjb : (⟨b, by simp only [List.length_cons] at h; omega⟩ : Fin n) = j := Fin.ext hj.symm
      have no : ¬ (b + 1 ≤ j.val) := by omega
      rw [Tbl.idxFrom]
      split
      · next hp => simp only [hjb] at hp ⊢; simp [hj, hp]
      · next hp =>
        simp only [hjb] at hp
        rw [ih (b + 1) hl j]
        simp [hj, hp]
    · have hne : j ≠ (⟨b, by simp only [List.length_cons] at h; omega⟩ : Fin n) := fun e => hj (by rw [e])
      rw [Tbl.idxFrom]
      have big : b ≤ j.val ↔ b + 1 ≤ j.val := by omega
      split
      · rw [List.mem_cons, ih (b + 1) hl j, step]
        simp only [hne, false_or, big]
      · rw [ih (b + 1) hl j, step, big]

/-- The search of a table finds exactly the indices whose entries satisfy the test. -/
theorem Tbl.mem_indices (t : Tbl α n) (p : Fin n → α → Bool) (j : Fin n) :
    j ∈ t.indices p ↔ p j (t.get j) = true := by
  rw [Tbl.indices, Tbl.mem_idxFrom]
  simp [Tbl.get, j.isLt]

/-- A search that comes back empty: no entry satisfies the test. -/
theorem Tbl.indices_isEmpty (t : Tbl α n) (p : Fin n → α → Bool) :
    (t.indices p).isEmpty = true ↔ ∀ j, p j (t.get j) = false := by
  rw [List.isEmpty_iff, List.eq_nil_iff_forall_not_mem]
  simp [Tbl.mem_indices]

/-- What `find?` finds satisfies the test. -/
theorem Tbl.find?_some {t : Tbl α n} {p : Fin n → α → Bool} {j : Fin n} (h : t.find? p = some j) :
    p j (t.get j) = true :=
  (Tbl.mem_indices t p j).1 (List.mem_of_mem_head? (by rw [Tbl.find?] at h; simp [h]))

/-- `find?` finds nothing exactly when no entry satisfies the test. -/
theorem Tbl.find?_none {t : Tbl α n} {p : Fin n → α → Bool} : t.find? p = none ↔ ∀ j, p j (t.get j) = false := by
  rw [Tbl.find?, List.head?_eq_none_iff, ← List.isEmpty_iff, Tbl.indices_isEmpty]

end Sys2Proof
end

