-- ==== Sys2Proof/Laws/State.lean ====
section
/-!
SUPPORT. The fields of the state under each named update: what an update writes, and that it leaves every other field.
-/
namespace Sys2Proof.Machine.State

@[simp] theorem modInLane_self (s : State) (i : InLaneId) (f : InLane → InLane) : (s.modInLane i f).inLane i = f (s.inLane i) :=
  Tbl.get_put_self _ _ _
theorem modInLane_ne (s : State) (f : InLane → InLane) {i j : InLaneId} (h : j ≠ i) : (s.modInLane i f).inLane j = s.inLane j :=
  Tbl.get_put_ne _ h _
@[simp] theorem modInLane_now (s : State) (i : InLaneId) (f : InLane → InLane) : (s.modInLane i f).now = s.now := rfl
@[simp] theorem modInLane_windowStart (s : State) (i : InLaneId) (f : InLane → InLane) : (s.modInLane i f).windowStart = s.windowStart := rfl
@[simp] theorem modInLane_routes (s : State) (i : InLaneId) (f : InLane → InLane) : (s.modInLane i f).routes = s.routes := rfl
@[simp] theorem modInLane_services (s : State) (i : InLaneId) (f : InLane → InLane) : (s.modInLane i f).services = s.services := rfl
@[simp] theorem modInLane_events (s : State) (i : InLaneId) (f : InLane → InLane) : (s.modInLane i f).events = s.events := rfl
@[simp] theorem modInLane_sched (s : State) (i : InLaneId) (f : InLane → InLane) : (s.modInLane i f).sched = s.sched := rfl
@[simp] theorem modInLane_log (s : State) (i : InLaneId) (f : InLane → InLane) : (s.modInLane i f).log = s.log := rfl
@[simp] theorem modInLane_windows (s : State) (i : InLaneId) (f : InLane → InLane) : (s.modInLane i f).windows = s.windows := rfl
@[simp] theorem modInLane_clips (s : State) (i : InLaneId) (f : InLane → InLane) : (s.modInLane i f).clips = s.clips := rfl
@[simp] theorem modInLane_slots (s : State) (i : InLaneId) (f : InLane → InLane) : (s.modInLane i f).slots = s.slots := rfl
@[simp] theorem modInLane_waitList (s : State) (i : InLaneId) (f : InLane → InLane) : (s.modInLane i f).waitList = s.waitList := rfl
@[simp] theorem modInLane_port (s : State) (i : InLaneId) (f : InLane → InLane) : (s.modInLane i f).port = s.port := rfl
@[simp] theorem modInLane_outLanes (s : State) (i : InLaneId) (f : InLane → InLane) : (s.modInLane i f).outLanes = s.outLanes := rfl
@[simp] theorem modInLane_alerts (s : State) (i : InLaneId) (f : InLane → InLane) : (s.modInLane i f).alerts = s.alerts := rfl
@[simp] theorem modInLane_lines (s : State) (i : InLaneId) (f : InLane → InLane) : (s.modInLane i f).lines = s.lines := rfl
@[simp] theorem modInLane_counters (s : State) (i : InLaneId) (f : InLane → InLane) : (s.modInLane i f).counters = s.counters := rfl
@[simp] theorem modInLane_channels (s : State) (i : InLaneId) (f : InLane → InLane) : (s.modInLane i f).channels = s.channels := rfl
@[simp] theorem modInLane_intake (s : State) (i : InLaneId) (f : InLane → InLane) : (s.modInLane i f).intake = s.intake := rfl
@[simp] theorem modInLane_storeFaultSeen (s : State) (i : InLaneId) (f : InLane → InLane) : (s.modInLane i f).storeFaultSeen = s.storeFaultSeen := rfl
@[simp] theorem modInLane_draws (s : State) (i : InLaneId) (f : InLane → InLane) : (s.modInLane i f).draws = s.draws := rfl
@[simp] theorem modInLane_lastResult (s : State) (i : InLaneId) (f : InLane → InLane) : (s.modInLane i f).lastResult = s.lastResult := rfl
@[simp] theorem modInLane_due (s : State) (i : InLaneId) (f : InLane → InLane) : (s.modInLane i f).due = s.due := rfl
@[simp] theorem modInLane_pending (s : State) (i : InLaneId) (f : InLane → InLane) : (s.modInLane i f).pending = s.pending := rfl
@[simp] theorem modRoute_self (s : State) (i : RouteId) (f : Route → Route) : (s.modRoute i f).route i = f (s.route i) :=
  Tbl.get_put_self _ _ _
theorem modRoute_ne (s : State) (f : Route → Route) {i j : RouteId} (h : j ≠ i) : (s.modRoute i f).route j = s.route j :=
  Tbl.get_put_ne _ h _
@[simp] theorem modRoute_now (s : State) (i : RouteId) (f : Route → Route) : (s.modRoute i f).now = s.now := rfl
@[simp] theorem modRoute_windowStart (s : State) (i : RouteId) (f : Route → Route) : (s.modRoute i f).windowStart = s.windowStart := rfl
@[simp] theorem modRoute_inLanes (s : State) (i : RouteId) (f : Route → Route) : (s.modRoute i f).inLanes = s.inLanes := rfl
@[simp] theorem modRoute_services (s : State) (i : RouteId) (f : Route → Route) : (s.modRoute i f).services = s.services := rfl
@[simp] theorem modRoute_events (s : State) (i : RouteId) (f : Route → Route) : (s.modRoute i f).events = s.events := rfl
@[simp] theorem modRoute_sched (s : State) (i : RouteId) (f : Route → Route) : (s.modRoute i f).sched = s.sched := rfl
@[simp] theorem modRoute_log (s : State) (i : RouteId) (f : Route → Route) : (s.modRoute i f).log = s.log := rfl
@[simp] theorem modRoute_windows (s : State) (i : RouteId) (f : Route → Route) : (s.modRoute i f).windows = s.windows := rfl
@[simp] theorem modRoute_clips (s : State) (i : RouteId) (f : Route → Route) : (s.modRoute i f).clips = s.clips := rfl
@[simp] theorem modRoute_slots (s : State) (i : RouteId) (f : Route → Route) : (s.modRoute i f).slots = s.slots := rfl
@[simp] theorem modRoute_waitList (s : State) (i : RouteId) (f : Route → Route) : (s.modRoute i f).waitList = s.waitList := rfl
@[simp] theorem modRoute_port (s : State) (i : RouteId) (f : Route → Route) : (s.modRoute i f).port = s.port := rfl
@[simp] theorem modRoute_outLanes (s : State) (i : RouteId) (f : Route → Route) : (s.modRoute i f).outLanes = s.outLanes := rfl
@[simp] theorem modRoute_alerts (s : State) (i : RouteId) (f : Route → Route) : (s.modRoute i f).alerts = s.alerts := rfl
@[simp] theorem modRoute_lines (s : State) (i : RouteId) (f : Route → Route) : (s.modRoute i f).lines = s.lines := rfl
@[simp] theorem modRoute_counters (s : State) (i : RouteId) (f : Route → Route) : (s.modRoute i f).counters = s.counters := rfl
@[simp] theorem modRoute_channels (s : State) (i : RouteId) (f : Route → Route) : (s.modRoute i f).channels = s.channels := rfl
@[simp] theorem modRoute_intake (s : State) (i : RouteId) (f : Route → Route) : (s.modRoute i f).intake = s.intake := rfl
@[simp] theorem modRoute_storeFaultSeen (s : State) (i : RouteId) (f : Route → Route) : (s.modRoute i f).storeFaultSeen = s.storeFaultSeen := rfl
@[simp] theorem modRoute_draws (s : State) (i : RouteId) (f : Route → Route) : (s.modRoute i f).draws = s.draws := rfl
@[simp] theorem modRoute_lastResult (s : State) (i : RouteId) (f : Route → Route) : (s.modRoute i f).lastResult = s.lastResult := rfl
@[simp] theorem modRoute_due (s : State) (i : RouteId) (f : Route → Route) : (s.modRoute i f).due = s.due := rfl
@[simp] theorem modRoute_pending (s : State) (i : RouteId) (f : Route → Route) : (s.modRoute i f).pending = s.pending := rfl
@[simp] theorem modSvc_self (s : State) (i : SvcId) (f : Service → Service) : (s.modSvc i f).svc i = f (s.svc i) :=
  Tbl.get_put_self _ _ _
theorem modSvc_ne (s : State) (f : Service → Service) {i j : SvcId} (h : j ≠ i) : (s.modSvc i f).svc j = s.svc j :=
  Tbl.get_put_ne _ h _
@[simp] theorem modSvc_now (s : State) (i : SvcId) (f : Service → Service) : (s.modSvc i f).now = s.now := rfl
@[simp] theorem modSvc_windowStart (s : State) (i : SvcId) (f : Service → Service) : (s.modSvc i f).windowStart = s.windowStart := rfl
@[simp] theorem modSvc_inLanes (s : State) (i : SvcId) (f : Service → Service) : (s.modSvc i f).inLanes = s.inLanes := rfl
@[simp] theorem modSvc_routes (s : State) (i : SvcId) (f : Service → Service) : (s.modSvc i f).routes = s.routes := rfl
@[simp] theorem modSvc_events (s : State) (i : SvcId) (f : Service → Service) : (s.modSvc i f).events = s.events := rfl
@[simp] theorem modSvc_sched (s : State) (i : SvcId) (f : Service → Service) : (s.modSvc i f).sched = s.sched := rfl
@[simp] theorem modSvc_log (s : State) (i : SvcId) (f : Service → Service) : (s.modSvc i f).log = s.log := rfl
@[simp] theorem modSvc_windows (s : State) (i : SvcId) (f : Service → Service) : (s.modSvc i f).windows = s.windows := rfl
@[simp] theorem modSvc_clips (s : State) (i : SvcId) (f : Service → Service) : (s.modSvc i f).clips = s.clips := rfl
@[simp] theorem modSvc_slots (s : State) (i : SvcId) (f : Service → Service) : (s.modSvc i f).slots = s.slots := rfl
@[simp] theorem modSvc_waitList (s : State) (i : SvcId) (f : Service → Service) : (s.modSvc i f).waitList = s.waitList := rfl
@[simp] theorem modSvc_port (s : State) (i : SvcId) (f : Service → Service) : (s.modSvc i f).port = s.port := rfl
@[simp] theorem modSvc_outLanes (s : State) (i : SvcId) (f : Service → Service) : (s.modSvc i f).outLanes = s.outLanes := rfl
@[simp] theorem modSvc_alerts (s : State) (i : SvcId) (f : Service → Service) : (s.modSvc i f).alerts = s.alerts := rfl
@[simp] theorem modSvc_lines (s : State) (i : SvcId) (f : Service → Service) : (s.modSvc i f).lines = s.lines := rfl
@[simp] theorem modSvc_counters (s : State) (i : SvcId) (f : Service → Service) : (s.modSvc i f).counters = s.counters := rfl
@[simp] theorem modSvc_channels (s : State) (i : SvcId) (f : Service → Service) : (s.modSvc i f).channels = s.channels := rfl
@[simp] theorem modSvc_intake (s : State) (i : SvcId) (f : Service → Service) : (s.modSvc i f).intake = s.intake := rfl
@[simp] theorem modSvc_storeFaultSeen (s : State) (i : SvcId) (f : Service → Service) : (s.modSvc i f).storeFaultSeen = s.storeFaultSeen := rfl
@[simp] theorem modSvc_draws (s : State) (i : SvcId) (f : Service → Service) : (s.modSvc i f).draws = s.draws := rfl
@[simp] theorem modSvc_lastResult (s : State) (i : SvcId) (f : Service → Service) : (s.modSvc i f).lastResult = s.lastResult := rfl
@[simp] theorem modSvc_due (s : State) (i : SvcId) (f : Service → Service) : (s.modSvc i f).due = s.due := rfl
@[simp] theorem modSvc_pending (s : State) (i : SvcId) (f : Service → Service) : (s.modSvc i f).pending = s.pending := rfl
@[simp] theorem modEvent_self (s : State) (i : EventId) (f : Event → Event) : (s.modEvent i f).event i = f (s.event i) :=
  Tbl.get_put_self _ _ _
theorem modEvent_ne (s : State) (f : Event → Event) {i j : EventId} (h : j ≠ i) : (s.modEvent i f).event j = s.event j :=
  Tbl.get_put_ne _ h _
@[simp] theorem modEvent_now (s : State) (i : EventId) (f : Event → Event) : (s.modEvent i f).now = s.now := rfl
@[simp] theorem modEvent_windowStart (s : State) (i : EventId) (f : Event → Event) : (s.modEvent i f).windowStart = s.windowStart := rfl
@[simp] theorem modEvent_inLanes (s : State) (i : EventId) (f : Event → Event) : (s.modEvent i f).inLanes = s.inLanes := rfl
@[simp] theorem modEvent_routes (s : State) (i : EventId) (f : Event → Event) : (s.modEvent i f).routes = s.routes := rfl
@[simp] theorem modEvent_services (s : State) (i : EventId) (f : Event → Event) : (s.modEvent i f).services = s.services := rfl
@[simp] theorem modEvent_sched (s : State) (i : EventId) (f : Event → Event) : (s.modEvent i f).sched = s.sched := rfl
@[simp] theorem modEvent_log (s : State) (i : EventId) (f : Event → Event) : (s.modEvent i f).log = s.log := rfl
@[simp] theorem modEvent_windows (s : State) (i : EventId) (f : Event → Event) : (s.modEvent i f).windows = s.windows := rfl
@[simp] theorem modEvent_clips (s : State) (i : EventId) (f : Event → Event) : (s.modEvent i f).clips = s.clips := rfl
@[simp] theorem modEvent_slots (s : State) (i : EventId) (f : Event → Event) : (s.modEvent i f).slots = s.slots := rfl
@[simp] theorem modEvent_waitList (s : State) (i : EventId) (f : Event → Event) : (s.modEvent i f).waitList = s.waitList := rfl
@[simp] theorem modEvent_port (s : State) (i : EventId) (f : Event → Event) : (s.modEvent i f).port = s.port := rfl
@[simp] theorem modEvent_outLanes (s : State) (i : EventId) (f : Event → Event) : (s.modEvent i f).outLanes = s.outLanes := rfl
@[simp] theorem modEvent_alerts (s : State) (i : EventId) (f : Event → Event) : (s.modEvent i f).alerts = s.alerts := rfl
@[simp] theorem modEvent_lines (s : State) (i : EventId) (f : Event → Event) : (s.modEvent i f).lines = s.lines := rfl
@[simp] theorem modEvent_counters (s : State) (i : EventId) (f : Event → Event) : (s.modEvent i f).counters = s.counters := rfl
@[simp] theorem modEvent_channels (s : State) (i : EventId) (f : Event → Event) : (s.modEvent i f).channels = s.channels := rfl
@[simp] theorem modEvent_intake (s : State) (i : EventId) (f : Event → Event) : (s.modEvent i f).intake = s.intake := rfl
@[simp] theorem modEvent_storeFaultSeen (s : State) (i : EventId) (f : Event → Event) : (s.modEvent i f).storeFaultSeen = s.storeFaultSeen := rfl
@[simp] theorem modEvent_draws (s : State) (i : EventId) (f : Event → Event) : (s.modEvent i f).draws = s.draws := rfl
@[simp] theorem modEvent_lastResult (s : State) (i : EventId) (f : Event → Event) : (s.modEvent i f).lastResult = s.lastResult := rfl
@[simp] theorem modEvent_due (s : State) (i : EventId) (f : Event → Event) : (s.modEvent i f).due = s.due := rfl
@[simp] theorem modEvent_pending (s : State) (i : EventId) (f : Event → Event) : (s.modEvent i f).pending = s.pending := rfl
@[simp] theorem modSlot_self (s : State) (i : SlotId) (f : Slot → Slot) : (s.modSlot i f).slot i = f (s.slot i) :=
  Tbl.get_put_self _ _ _
theorem modSlot_ne (s : State) (f : Slot → Slot) {i j : SlotId} (h : j ≠ i) : (s.modSlot i f).slot j = s.slot j :=
  Tbl.get_put_ne _ h _
@[simp] theorem modSlot_now (s : State) (i : SlotId) (f : Slot → Slot) : (s.modSlot i f).now = s.now := rfl
@[simp] theorem modSlot_windowStart (s : State) (i : SlotId) (f : Slot → Slot) : (s.modSlot i f).windowStart = s.windowStart := rfl
@[simp] theorem modSlot_inLanes (s : State) (i : SlotId) (f : Slot → Slot) : (s.modSlot i f).inLanes = s.inLanes := rfl
@[simp] theorem modSlot_routes (s : State) (i : SlotId) (f : Slot → Slot) : (s.modSlot i f).routes = s.routes := rfl
@[simp] theorem modSlot_services (s : State) (i : SlotId) (f : Slot → Slot) : (s.modSlot i f).services = s.services := rfl
@[simp] theorem modSlot_events (s : State) (i : SlotId) (f : Slot → Slot) : (s.modSlot i f).events = s.events := rfl
@[simp] theorem modSlot_sched (s : State) (i : SlotId) (f : Slot → Slot) : (s.modSlot i f).sched = s.sched := rfl
@[simp] theorem modSlot_log (s : State) (i : SlotId) (f : Slot → Slot) : (s.modSlot i f).log = s.log := rfl
@[simp] theorem modSlot_windows (s : State) (i : SlotId) (f : Slot → Slot) : (s.modSlot i f).windows = s.windows := rfl
@[simp] theorem modSlot_clips (s : State) (i : SlotId) (f : Slot → Slot) : (s.modSlot i f).clips = s.clips := rfl
@[simp] theorem modSlot_waitList (s : State) (i : SlotId) (f : Slot → Slot) : (s.modSlot i f).waitList = s.waitList := rfl
@[simp] theorem modSlot_port (s : State) (i : SlotId) (f : Slot → Slot) : (s.modSlot i f).port = s.port := rfl
@[simp] theorem modSlot_outLanes (s : State) (i : SlotId) (f : Slot → Slot) : (s.modSlot i f).outLanes = s.outLanes := rfl
@[simp] theorem modSlot_alerts (s : State) (i : SlotId) (f : Slot → Slot) : (s.modSlot i f).alerts = s.alerts := rfl
@[simp] theorem modSlot_lines (s : State) (i : SlotId) (f : Slot → Slot) : (s.modSlot i f).lines = s.lines := rfl
@[simp] theorem modSlot_counters (s : State) (i : SlotId) (f : Slot → Slot) : (s.modSlot i f).counters = s.counters := rfl
@[simp] theorem modSlot_channels (s : State) (i : SlotId) (f : Slot → Slot) : (s.modSlot i f).channels = s.channels := rfl
@[simp] theorem modSlot_intake (s : State) (i : SlotId) (f : Slot → Slot) : (s.modSlot i f).intake = s.intake := rfl
@[simp] theorem modSlot_storeFaultSeen (s : State) (i : SlotId) (f : Slot → Slot) : (s.modSlot i f).storeFaultSeen = s.storeFaultSeen := rfl
@[simp] theorem modSlot_draws (s : State) (i : SlotId) (f : Slot → Slot) : (s.modSlot i f).draws = s.draws := rfl
@[simp] theorem modSlot_lastResult (s : State) (i : SlotId) (f : Slot → Slot) : (s.modSlot i f).lastResult = s.lastResult := rfl
@[simp] theorem modSlot_due (s : State) (i : SlotId) (f : Slot → Slot) : (s.modSlot i f).due = s.due := rfl
@[simp] theorem modSlot_pending (s : State) (i : SlotId) (f : Slot → Slot) : (s.modSlot i f).pending = s.pending := rfl
@[simp] theorem modOutLane_self (s : State) (i : OutLaneId) (f : OutLane → OutLane) : (s.modOutLane i f).outLane i = f (s.outLane i) :=
  Tbl.get_put_self _ _ _
theorem modOutLane_ne (s : State) (f : OutLane → OutLane) {i j : OutLaneId} (h : j ≠ i) : (s.modOutLane i f).outLane j = s.outLane j :=
  Tbl.get_put_ne _ h _
@[simp] theorem modOutLane_now (s : State) (i : OutLaneId) (f : OutLane → OutLane) : (s.modOutLane i f).now = s.now := rfl
@[simp] theorem modOutLane_windowStart (s : State) (i : OutLaneId) (f : OutLane → OutLane) : (s.modOutLane i f).windowStart = s.windowStart := rfl
@[simp] theorem modOutLane_inLanes (s : State) (i : OutLaneId) (f : OutLane → OutLane) : (s.modOutLane i f).inLanes = s.inLanes := rfl
@[simp] theorem modOutLane_routes (s : State) (i : OutLaneId) (f : OutLane → OutLane) : (s.modOutLane i f).routes = s.routes := rfl
@[simp] theorem modOutLane_services (s : State) (i : OutLaneId) (f : OutLane → OutLane) : (s.modOutLane i f).services = s.services := rfl
@[simp] theorem modOutLane_events (s : State) (i : OutLaneId) (f : OutLane → OutLane) : (s.modOutLane i f).events = s.events := rfl
@[simp] theorem modOutLane_sched (s : State) (i : OutLaneId) (f : OutLane → OutLane) : (s.modOutLane i f).sched = s.sched := rfl
@[simp] theorem modOutLane_log (s : State) (i : OutLaneId) (f : OutLane → OutLane) : (s.modOutLane i f).log = s.log := rfl
@[simp] theorem modOutLane_windows (s : State) (i : OutLaneId) (f : OutLane → OutLane) : (s.modOutLane i f).windows = s.windows := rfl
@[simp] theorem modOutLane_clips (s : State) (i : OutLaneId) (f : OutLane → OutLane) : (s.modOutLane i f).clips = s.clips := rfl
@[simp] theorem modOutLane_slots (s : State) (i : OutLaneId) (f : OutLane → OutLane) : (s.modOutLane i f).slots = s.slots := rfl
@[simp] theorem modOutLane_waitList (s : State) (i : OutLaneId) (f : OutLane → OutLane) : (s.modOutLane i f).waitList = s.waitList := rfl
@[simp] theorem modOutLane_port (s : State) (i : OutLaneId) (f : OutLane → OutLane) : (s.modOutLane i f).port = s.port := rfl
@[simp] theorem modOutLane_alerts (s : State) (i : OutLaneId) (f : OutLane → OutLane) : (s.modOutLane i f).alerts = s.alerts := rfl
@[simp] theorem modOutLane_lines (s : State) (i : OutLaneId) (f : OutLane → OutLane) : (s.modOutLane i f).lines = s.lines := rfl
@[simp] theorem modOutLane_counters (s : State) (i : OutLaneId) (f : OutLane → OutLane) : (s.modOutLane i f).counters = s.counters := rfl
@[simp] theorem modOutLane_channels (s : State) (i : OutLaneId) (f : OutLane → OutLane) : (s.modOutLane i f).channels = s.channels := rfl
@[simp] theorem modOutLane_intake (s : State) (i : OutLaneId) (f : OutLane → OutLane) : (s.modOutLane i f).intake = s.intake := rfl
@[simp] theorem modOutLane_storeFaultSeen (s : State) (i : OutLaneId) (f : OutLane → OutLane) : (s.modOutLane i f).storeFaultSeen = s.storeFaultSeen := rfl
@[simp] theorem modOutLane_draws (s : State) (i : OutLaneId) (f : OutLane → OutLane) : (s.modOutLane i f).draws = s.draws := rfl
@[simp] theorem modOutLane_lastResult (s : State) (i : OutLaneId) (f : OutLane → OutLane) : (s.modOutLane i f).lastResult = s.lastResult := rfl
@[simp] theorem modOutLane_due (s : State) (i : OutLaneId) (f : OutLane → OutLane) : (s.modOutLane i f).due = s.due := rfl
@[simp] theorem modOutLane_pending (s : State) (i : OutLaneId) (f : OutLane → OutLane) : (s.modOutLane i f).pending = s.pending := rfl
@[simp] theorem modAlert_self (s : State) (i : AlertId) (f : Alert → Alert) : (s.modAlert i f).alert i = f (s.alert i) :=
  Tbl.get_put_self _ _ _
theorem modAlert_ne (s : State) (f : Alert → Alert) {i j : AlertId} (h : j ≠ i) : (s.modAlert i f).alert j = s.alert j :=
  Tbl.get_put_ne _ h _
@[simp] theorem modAlert_now (s : State) (i : AlertId) (f : Alert → Alert) : (s.modAlert i f).now = s.now := rfl
@[simp] theorem modAlert_windowStart (s : State) (i : AlertId) (f : Alert → Alert) : (s.modAlert i f).windowStart = s.windowStart := rfl
@[simp] theorem modAlert_inLanes (s : State) (i : AlertId) (f : Alert → Alert) : (s.modAlert i f).inLanes = s.inLanes := rfl
@[simp] theorem modAlert_routes (s : State) (i : AlertId) (f : Alert → Alert) : (s.modAlert i f).routes = s.routes := rfl
@[simp] theorem modAlert_services (s : State) (i : AlertId) (f : Alert → Alert) : (s.modAlert i f).services = s.services := rfl
@[simp] theorem modAlert_events (s : State) (i : AlertId) (f : Alert → Alert) : (s.modAlert i f).events = s.events := rfl
@[simp] theorem modAlert_sched (s : State) (i : AlertId) (f : Alert → Alert) : (s.modAlert i f).sched = s.sched := rfl
@[simp] theorem modAlert_log (s : State) (i : AlertId) (f : Alert → Alert) : (s.modAlert i f).log = s.log := rfl
@[simp] theorem modAlert_windows (s : State) (i : AlertId) (f : Alert → Alert) : (s.modAlert i f).windows = s.windows := rfl
@[simp] theorem modAlert_clips (s : State) (i : AlertId) (f : Alert → Alert) : (s.modAlert i f).clips = s.clips := rfl
@[simp] theorem modAlert_slots (s : State) (i : AlertId) (f : Alert → Alert) : (s.modAlert i f).slots = s.slots := rfl
@[simp] theorem modAlert_waitList (s : State) (i : AlertId) (f : Alert → Alert) : (s.modAlert i f).waitList = s.waitList := rfl
@[simp] theorem modAlert_port (s : State) (i : AlertId) (f : Alert → Alert) : (s.modAlert i f).port = s.port := rfl
@[simp] theorem modAlert_outLanes (s : State) (i : AlertId) (f : Alert → Alert) : (s.modAlert i f).outLanes = s.outLanes := rfl
@[simp] theorem modAlert_lines (s : State) (i : AlertId) (f : Alert → Alert) : (s.modAlert i f).lines = s.lines := rfl
@[simp] theorem modAlert_counters (s : State) (i : AlertId) (f : Alert → Alert) : (s.modAlert i f).counters = s.counters := rfl
@[simp] theorem modAlert_channels (s : State) (i : AlertId) (f : Alert → Alert) : (s.modAlert i f).channels = s.channels := rfl
@[simp] theorem modAlert_intake (s : State) (i : AlertId) (f : Alert → Alert) : (s.modAlert i f).intake = s.intake := rfl
@[simp] theorem modAlert_storeFaultSeen (s : State) (i : AlertId) (f : Alert → Alert) : (s.modAlert i f).storeFaultSeen = s.storeFaultSeen := rfl
@[simp] theorem modAlert_draws (s : State) (i : AlertId) (f : Alert → Alert) : (s.modAlert i f).draws = s.draws := rfl
@[simp] theorem modAlert_lastResult (s : State) (i : AlertId) (f : Alert → Alert) : (s.modAlert i f).lastResult = s.lastResult := rfl
@[simp] theorem modAlert_due (s : State) (i : AlertId) (f : Alert → Alert) : (s.modAlert i f).due = s.due := rfl
@[simp] theorem modAlert_pending (s : State) (i : AlertId) (f : Alert → Alert) : (s.modAlert i f).pending = s.pending := rfl
@[simp] theorem modLine_self (s : State) (i : LineId) (f : CueLine → CueLine) : (s.modLine i f).line i = f (s.line i) :=
  Tbl.get_put_self _ _ _
theorem modLine_ne (s : State) (f : CueLine → CueLine) {i j : LineId} (h : j ≠ i) : (s.modLine i f).line j = s.line j :=
  Tbl.get_put_ne _ h _
@[simp] theorem modLine_now (s : State) (i : LineId) (f : CueLine → CueLine) : (s.modLine i f).now = s.now := rfl
@[simp] theorem modLine_windowStart (s : State) (i : LineId) (f : CueLine → CueLine) : (s.modLine i f).windowStart = s.windowStart := rfl
@[simp] theorem modLine_inLanes (s : State) (i : LineId) (f : CueLine → CueLine) : (s.modLine i f).inLanes = s.inLanes := rfl
@[simp] theorem modLine_routes (s : State) (i : LineId) (f : CueLine → CueLine) : (s.modLine i f).routes = s.routes := rfl
@[simp] theorem modLine_services (s : State) (i : LineId) (f : CueLine → CueLine) : (s.modLine i f).services = s.services := rfl
@[simp] theorem modLine_events (s : State) (i : LineId) (f : CueLine → CueLine) : (s.modLine i f).events = s.events := rfl
@[simp] theorem modLine_sched (s : State) (i : LineId) (f : CueLine → CueLine) : (s.modLine i f).sched = s.sched := rfl
@[simp] theorem modLine_log (s : State) (i : LineId) (f : CueLine → CueLine) : (s.modLine i f).log = s.log := rfl
@[simp] theorem modLine_windows (s : State) (i : LineId) (f : CueLine → CueLine) : (s.modLine i f).windows = s.windows := rfl
@[simp] theorem modLine_clips (s : State) (i : LineId) (f : CueLine → CueLine) : (s.modLine i f).clips = s.clips := rfl
@[simp] theorem modLine_slots (s : State) (i : LineId) (f : CueLine → CueLine) : (s.modLine i f).slots = s.slots := rfl
@[simp] theorem modLine_waitList (s : State) (i : LineId) (f : CueLine → CueLine) : (s.modLine i f).waitList = s.waitList := rfl
@[simp] theorem modLine_port (s : State) (i : LineId) (f : CueLine → CueLine) : (s.modLine i f).port = s.port := rfl
@[simp] theorem modLine_outLanes (s : State) (i : LineId) (f : CueLine → CueLine) : (s.modLine i f).outLanes = s.outLanes := rfl
@[simp] theorem modLine_alerts (s : State) (i : LineId) (f : CueLine → CueLine) : (s.modLine i f).alerts = s.alerts := rfl
@[simp] theorem modLine_counters (s : State) (i : LineId) (f : CueLine → CueLine) : (s.modLine i f).counters = s.counters := rfl
@[simp] theorem modLine_channels (s : State) (i : LineId) (f : CueLine → CueLine) : (s.modLine i f).channels = s.channels := rfl
@[simp] theorem modLine_intake (s : State) (i : LineId) (f : CueLine → CueLine) : (s.modLine i f).intake = s.intake := rfl
@[simp] theorem modLine_storeFaultSeen (s : State) (i : LineId) (f : CueLine → CueLine) : (s.modLine i f).storeFaultSeen = s.storeFaultSeen := rfl
@[simp] theorem modLine_draws (s : State) (i : LineId) (f : CueLine → CueLine) : (s.modLine i f).draws = s.draws := rfl
@[simp] theorem modLine_lastResult (s : State) (i : LineId) (f : CueLine → CueLine) : (s.modLine i f).lastResult = s.lastResult := rfl
@[simp] theorem modLine_due (s : State) (i : LineId) (f : CueLine → CueLine) : (s.modLine i f).due = s.due := rfl
@[simp] theorem modLine_pending (s : State) (i : LineId) (f : CueLine → CueLine) : (s.modLine i f).pending = s.pending := rfl
@[simp] theorem modCounter_self (s : State) (i : CounterId) (f : Counter → Counter) : (s.modCounter i f).counter i = f (s.counter i) :=
  Tbl.get_put_self _ _ _
theorem modCounter_ne (s : State) (f : Counter → Counter) {i j : CounterId} (h : j ≠ i) : (s.modCounter i f).counter j = s.counter j :=
  Tbl.get_put_ne _ h _
@[simp] theorem modCounter_now (s : State) (i : CounterId) (f : Counter → Counter) : (s.modCounter i f).now = s.now := rfl
@[simp] theorem modCounter_windowStart (s : State) (i : CounterId) (f : Counter → Counter) : (s.modCounter i f).windowStart = s.windowStart := rfl
@[simp] theorem modCounter_inLanes (s : State) (i : CounterId) (f : Counter → Counter) : (s.modCounter i f).inLanes = s.inLanes := rfl
@[simp] theorem modCounter_routes (s : State) (i : CounterId) (f : Counter → Counter) : (s.modCounter i f).routes = s.routes := rfl
@[simp] theorem modCounter_services (s : State) (i : CounterId) (f : Counter → Counter) : (s.modCounter i f).services = s.services := rfl
@[simp] theorem modCounter_events (s : State) (i : CounterId) (f : Counter → Counter) : (s.modCounter i f).events = s.events := rfl
@[simp] theorem modCounter_sched (s : State) (i : CounterId) (f : Counter → Counter) : (s.modCounter i f).sched = s.sched := rfl
@[simp] theorem modCounter_log (s : State) (i : CounterId) (f : Counter → Counter) : (s.modCounter i f).log = s.log := rfl
@[simp] theorem modCounter_windows (s : State) (i : CounterId) (f : Counter → Counter) : (s.modCounter i f).windows = s.windows := rfl
@[simp] theorem modCounter_clips (s : State) (i : CounterId) (f : Counter → Counter) : (s.modCounter i f).clips = s.clips := rfl
@[simp] theorem modCounter_slots (s : State) (i : CounterId) (f : Counter → Counter) : (s.modCounter i f).slots = s.slots := rfl
@[simp] theorem modCounter_waitList (s : State) (i : CounterId) (f : Counter → Counter) : (s.modCounter i f).waitList = s.waitList := rfl
@[simp] theorem modCounter_port (s : State) (i : CounterId) (f : Counter → Counter) : (s.modCounter i f).port = s.port := rfl
@[simp] theorem modCounter_outLanes (s : State) (i : CounterId) (f : Counter → Counter) : (s.modCounter i f).outLanes = s.outLanes := rfl
@[simp] theorem modCounter_alerts (s : State) (i : CounterId) (f : Counter → Counter) : (s.modCounter i f).alerts = s.alerts := rfl
@[simp] theorem modCounter_lines (s : State) (i : CounterId) (f : Counter → Counter) : (s.modCounter i f).lines = s.lines := rfl
@[simp] theorem modCounter_channels (s : State) (i : CounterId) (f : Counter → Counter) : (s.modCounter i f).channels = s.channels := rfl
@[simp] theorem modCounter_intake (s : State) (i : CounterId) (f : Counter → Counter) : (s.modCounter i f).intake = s.intake := rfl
@[simp] theorem modCounter_storeFaultSeen (s : State) (i : CounterId) (f : Counter → Counter) : (s.modCounter i f).storeFaultSeen = s.storeFaultSeen := rfl
@[simp] theorem modCounter_draws (s : State) (i : CounterId) (f : Counter → Counter) : (s.modCounter i f).draws = s.draws := rfl
@[simp] theorem modCounter_lastResult (s : State) (i : CounterId) (f : Counter → Counter) : (s.modCounter i f).lastResult = s.lastResult := rfl
@[simp] theorem modCounter_due (s : State) (i : CounterId) (f : Counter → Counter) : (s.modCounter i f).due = s.due := rfl
@[simp] theorem modCounter_pending (s : State) (i : CounterId) (f : Counter → Counter) : (s.modCounter i f).pending = s.pending := rfl
@[simp] theorem modChannel_self (s : State) (i : ChannelId) (f : Channel → Channel) : (s.modChannel i f).channel i = f (s.channel i) :=
  Tbl.get_put_self _ _ _
theorem modChannel_ne (s : State) (f : Channel → Channel) {i j : ChannelId} (h : j ≠ i) : (s.modChannel i f).channel j = s.channel j :=
  Tbl.get_put_ne _ h _
@[simp] theorem modChannel_now (s : State) (i : ChannelId) (f : Channel → Channel) : (s.modChannel i f).now = s.now := rfl
@[simp] theorem modChannel_windowStart (s : State) (i : ChannelId) (f : Channel → Channel) : (s.modChannel i f).windowStart = s.windowStart := rfl
@[simp] theorem modChannel_inLanes (s : State) (i : ChannelId) (f : Channel → Channel) : (s.modChannel i f).inLanes = s.inLanes := rfl
@[simp] theorem modChannel_routes (s : State) (i : ChannelId) (f : Channel → Channel) : (s.modChannel i f).routes = s.routes := rfl
@[simp] theorem modChannel_services (s : State) (i : ChannelId) (f : Channel → Channel) : (s.modChannel i f).services = s.services := rfl
@[simp] theorem modChannel_events (s : State) (i : ChannelId) (f : Channel → Channel) : (s.modChannel i f).events = s.events := rfl
@[simp] theorem modChannel_sched (s : State) (i : ChannelId) (f : Channel → Channel) : (s.modChannel i f).sched = s.sched := rfl
@[simp] theorem modChannel_log (s : State) (i : ChannelId) (f : Channel → Channel) : (s.modChannel i f).log = s.log := rfl
@[simp] theorem modChannel_windows (s : State) (i : ChannelId) (f : Channel → Channel) : (s.modChannel i f).windows = s.windows := rfl
@[simp] theorem modChannel_clips (s : State) (i : ChannelId) (f : Channel → Channel) : (s.modChannel i f).clips = s.clips := rfl
@[simp] theorem modChannel_slots (s : State) (i : ChannelId) (f : Channel → Channel) : (s.modChannel i f).slots = s.slots := rfl
@[simp] theorem modChannel_waitList (s : State) (i : ChannelId) (f : Channel → Channel) : (s.modChannel i f).waitList = s.waitList := rfl
@[simp] theorem modChannel_port (s : State) (i : ChannelId) (f : Channel → Channel) : (s.modChannel i f).port = s.port := rfl
@[simp] theorem modChannel_outLanes (s : State) (i : ChannelId) (f : Channel → Channel) : (s.modChannel i f).outLanes = s.outLanes := rfl
@[simp] theorem modChannel_alerts (s : State) (i : ChannelId) (f : Channel → Channel) : (s.modChannel i f).alerts = s.alerts := rfl
@[simp] theorem modChannel_lines (s : State) (i : ChannelId) (f : Channel → Channel) : (s.modChannel i f).lines = s.lines := rfl
@[simp] theorem modChannel_counters (s : State) (i : ChannelId) (f : Channel → Channel) : (s.modChannel i f).counters = s.counters := rfl
@[simp] theorem modChannel_intake (s : State) (i : ChannelId) (f : Channel → Channel) : (s.modChannel i f).intake = s.intake := rfl
@[simp] theorem modChannel_storeFaultSeen (s : State) (i : ChannelId) (f : Channel → Channel) : (s.modChannel i f).storeFaultSeen = s.storeFaultSeen := rfl
@[simp] theorem modChannel_draws (s : State) (i : ChannelId) (f : Channel → Channel) : (s.modChannel i f).draws = s.draws := rfl
@[simp] theorem modChannel_lastResult (s : State) (i : ChannelId) (f : Channel → Channel) : (s.modChannel i f).lastResult = s.lastResult := rfl
@[simp] theorem modChannel_due (s : State) (i : ChannelId) (f : Channel → Channel) : (s.modChannel i f).due = s.due := rfl
@[simp] theorem modChannel_pending (s : State) (i : ChannelId) (f : Channel → Channel) : (s.modChannel i f).pending = s.pending := rfl
@[simp] theorem setList_self (s : State) (i : SvcId) (x : List EventId) : (s.setList i x).list i = x :=
  Tbl.get_put_self _ _ _
theorem setList_ne (s : State) (x : List EventId) {i j : SvcId} (h : j ≠ i) : (s.setList i x).list j = s.list j :=
  Tbl.get_put_ne _ h _
@[simp] theorem setList_now (s : State) (i : SvcId) (x : List EventId) : (s.setList i x).now = s.now := rfl
@[simp] theorem setList_windowStart (s : State) (i : SvcId) (x : List EventId) : (s.setList i x).windowStart = s.windowStart := rfl
@[simp] theorem setList_inLanes (s : State) (i : SvcId) (x : List EventId) : (s.setList i x).inLanes = s.inLanes := rfl
@[simp] theorem setList_routes (s : State) (i : SvcId) (x : List EventId) : (s.setList i x).routes = s.routes := rfl
@[simp] theorem setList_services (s : State) (i : SvcId) (x : List EventId) : (s.setList i x).services = s.services := rfl
@[simp] theorem setList_events (s : State) (i : SvcId) (x : List EventId) : (s.setList i x).events = s.events := rfl
@[simp] theorem setList_log (s : State) (i : SvcId) (x : List EventId) : (s.setList i x).log = s.log := rfl
@[simp] theorem setList_windows (s : State) (i : SvcId) (x : List EventId) : (s.setList i x).windows = s.windows := rfl
@[simp] theorem setList_clips (s : State) (i : SvcId) (x : List EventId) : (s.setList i x).clips = s.clips := rfl
@[simp] theorem setList_slots (s : State) (i : SvcId) (x : List EventId) : (s.setList i x).slots = s.slots := rfl
@[simp] theorem setList_waitList (s : State) (i : SvcId) (x : List EventId) : (s.setList i x).waitList = s.waitList := rfl
@[simp] theorem setList_port (s : State) (i : SvcId) (x : List EventId) : (s.setList i x).port = s.port := rfl
@[simp] theorem setList_outLanes (s : State) (i : SvcId) (x : List EventId) : (s.setList i x).outLanes = s.outLanes := rfl
@[simp] theorem setList_alerts (s : State) (i : SvcId) (x : List EventId) : (s.setList i x).alerts = s.alerts := rfl
@[simp] theorem setList_lines (s : State) (i : SvcId) (x : List EventId) : (s.setList i x).lines = s.lines := rfl
@[simp] theorem setList_counters (s : State) (i : SvcId) (x : List EventId) : (s.setList i x).counters = s.counters := rfl
@[simp] theorem setList_channels (s : State) (i : SvcId) (x : List EventId) : (s.setList i x).channels = s.channels := rfl
@[simp] theorem setList_intake (s : State) (i : SvcId) (x : List EventId) : (s.setList i x).intake = s.intake := rfl
@[simp] theorem setList_storeFaultSeen (s : State) (i : SvcId) (x : List EventId) : (s.setList i x).storeFaultSeen = s.storeFaultSeen := rfl
@[simp] theorem setList_draws (s : State) (i : SvcId) (x : List EventId) : (s.setList i x).draws = s.draws := rfl
@[simp] theorem setList_lastResult (s : State) (i : SvcId) (x : List EventId) : (s.setList i x).lastResult = s.lastResult := rfl
@[simp] theorem setList_due (s : State) (i : SvcId) (x : List EventId) : (s.setList i x).due = s.due := rfl
@[simp] theorem setList_pending (s : State) (i : SvcId) (x : List EventId) : (s.setList i x).pending = s.pending := rfl
@[simp] theorem setWindow_self (s : State) (i : WindowId) (x : Window) : (s.setWindow i x).window i = x :=
  Tbl.get_put_self _ _ _
theorem setWindow_ne (s : State) (x : Window) {i j : WindowId} (h : j ≠ i) : (s.setWindow i x).window j = s.window j :=
  Tbl.get_put_ne _ h _
@[simp] theorem setWindow_now (s : State) (i : WindowId) (x : Window) : (s.setWindow i x).now = s.now := rfl
@[simp] theorem setWindow_windowStart (s : State) (i : WindowId) (x : Window) : (s.setWindow i x).windowStart = s.windowStart := rfl
@[simp] theorem setWindow_inLanes (s : State) (i : WindowId) (x : Window) : (s.setWindow i x).inLanes = s.inLanes := rfl
@[simp] theorem setWindow_routes (s : State) (i : WindowId) (x : Window) : (s.setWindow i x).routes = s.routes := rfl
@[simp] theorem setWindow_services (s : State) (i : WindowId) (x : Window) : (s.setWindow i x).services = s.services := rfl
@[simp] theorem setWindow_events (s : State) (i : WindowId) (x : Window) : (s.setWindow i x).events = s.events := rfl
@[simp] theorem setWindow_sched (s : State) (i : WindowId) (x : Window) : (s.setWindow i x).sched = s.sched := rfl
@[simp] theorem setWindow_log (s : State) (i : WindowId) (x : Window) : (s.setWindow i x).log = s.log := rfl
@[simp] theorem setWindow_clips (s : State) (i : WindowId) (x : Window) : (s.setWindow i x).clips = s.clips := rfl
@[simp] theorem setWindow_slots (s : State) (i : WindowId) (x : Window) : (s.setWindow i x).slots = s.slots := rfl
@[simp] theorem setWindow_waitList (s : State) (i : WindowId) (x : Window) : (s.setWindow i x).waitList = s.waitList := rfl
@[simp] theorem setWindow_port (s : State) (i : WindowId) (x : Window) : (s.setWindow i x).port = s.port := rfl
@[simp] theorem setWindow_outLanes (s : State) (i : WindowId) (x : Window) : (s.setWindow i x).outLanes = s.outLanes := rfl
@[simp] theorem setWindow_alerts (s : State) (i : WindowId) (x : Window) : (s.setWindow i x).alerts = s.alerts := rfl
@[simp] theorem setWindow_lines (s : State) (i : WindowId) (x : Window) : (s.setWindow i x).lines = s.lines := rfl
@[simp] theorem setWindow_counters (s : State) (i : WindowId) (x : Window) : (s.setWindow i x).counters = s.counters := rfl
@[simp] theorem setWindow_channels (s : State) (i : WindowId) (x : Window) : (s.setWindow i x).channels = s.channels := rfl
@[simp] theorem setWindow_intake (s : State) (i : WindowId) (x : Window) : (s.setWindow i x).intake = s.intake := rfl
@[simp] theorem setWindow_storeFaultSeen (s : State) (i : WindowId) (x : Window) : (s.setWindow i x).storeFaultSeen = s.storeFaultSeen := rfl
@[simp] theorem setWindow_draws (s : State) (i : WindowId) (x : Window) : (s.setWindow i x).draws = s.draws := rfl
@[simp] theorem setWindow_lastResult (s : State) (i : WindowId) (x : Window) : (s.setWindow i x).lastResult = s.lastResult := rfl
@[simp] theorem setWindow_due (s : State) (i : WindowId) (x : Window) : (s.setWindow i x).due = s.due := rfl
@[simp] theorem setWindow_pending (s : State) (i : WindowId) (x : Window) : (s.setWindow i x).pending = s.pending := rfl
@[simp] theorem setClip_self (s : State) (i : ClipId) (x : Clip) : (s.setClip i x).clip i = x :=
  Tbl.get_put_self _ _ _
theorem setClip_ne (s : State) (x : Clip) {i j : ClipId} (h : j ≠ i) : (s.setClip i x).clip j = s.clip j :=
  Tbl.get_put_ne _ h _
@[simp] theorem setClip_now (s : State) (i : ClipId) (x : Clip) : (s.setClip i x).now = s.now := rfl
@[simp] theorem setClip_windowStart (s : State) (i : ClipId) (x : Clip) : (s.setClip i x).windowStart = s.windowStart := rfl
@[simp] theorem setClip_inLanes (s : State) (i : ClipId) (x : Clip) : (s.setClip i x).inLanes = s.inLanes := rfl
@[simp] theorem setClip_routes (s : State) (i : ClipId) (x : Clip) : (s.setClip i x).routes = s.routes := rfl
@[simp] theorem setClip_services (s : State) (i : ClipId) (x : Clip) : (s.setClip i x).services = s.services := rfl
@[simp] theorem setClip_events (s : State) (i : ClipId) (x : Clip) : (s.setClip i x).events = s.events := rfl
@[simp] theorem setClip_sched (s : State) (i : ClipId) (x : Clip) : (s.setClip i x).sched = s.sched := rfl
@[simp] theorem setClip_log (s : State) (i : ClipId) (x : Clip) : (s.setClip i x).log = s.log := rfl
@[simp] theorem setClip_windows (s : State) (i : ClipId) (x : Clip) : (s.setClip i x).windows = s.windows := rfl
@[simp] theorem setClip_slots (s : State) (i : ClipId) (x : Clip) : (s.setClip i x).slots = s.slots := rfl
@[simp] theorem setClip_waitList (s : State) (i : ClipId) (x : Clip) : (s.setClip i x).waitList = s.waitList := rfl
@[simp] theorem setClip_port (s : State) (i : ClipId) (x : Clip) : (s.setClip i x).port = s.port := rfl
@[simp] theorem setClip_outLanes (s : State) (i : ClipId) (x : Clip) : (s.setClip i x).outLanes = s.outLanes := rfl
@[simp] theorem setClip_alerts (s : State) (i : ClipId) (x : Clip) : (s.setClip i x).alerts = s.alerts := rfl
@[simp] theorem setClip_lines (s : State) (i : ClipId) (x : Clip) : (s.setClip i x).lines = s.lines := rfl
@[simp] theorem setClip_counters (s : State) (i : ClipId) (x : Clip) : (s.setClip i x).counters = s.counters := rfl
@[simp] theorem setClip_channels (s : State) (i : ClipId) (x : Clip) : (s.setClip i x).channels = s.channels := rfl
@[simp] theorem setClip_intake (s : State) (i : ClipId) (x : Clip) : (s.setClip i x).intake = s.intake := rfl
@[simp] theorem setClip_storeFaultSeen (s : State) (i : ClipId) (x : Clip) : (s.setClip i x).storeFaultSeen = s.storeFaultSeen := rfl
@[simp] theorem setClip_draws (s : State) (i : ClipId) (x : Clip) : (s.setClip i x).draws = s.draws := rfl
@[simp] theorem setClip_lastResult (s : State) (i : ClipId) (x : Clip) : (s.setClip i x).lastResult = s.lastResult := rfl
@[simp] theorem setClip_due (s : State) (i : ClipId) (x : Clip) : (s.setClip i x).due = s.due := rfl
@[simp] theorem setClip_pending (s : State) (i : ClipId) (x : Clip) : (s.setClip i x).pending = s.pending := rfl
@[simp] theorem modPort_port (s : State) (f : Port → Port) : (s.modPort f).port = f s.port := rfl
@[simp] theorem modPort_now (s : State) (f : Port → Port) : (s.modPort f).now = s.now := rfl
@[simp] theorem modPort_windowStart (s : State) (f : Port → Port) : (s.modPort f).windowStart = s.windowStart := rfl
@[simp] theorem modPort_inLanes (s : State) (f : Port → Port) : (s.modPort f).inLanes = s.inLanes := rfl
@[simp] theorem modPort_routes (s : State) (f : Port → Port) : (s.modPort f).routes = s.routes := rfl
@[simp] theorem modPort_services (s : State) (f : Port → Port) : (s.modPort f).services = s.services := rfl
@[simp] theorem modPort_events (s : State) (f : Port → Port) : (s.modPort f).events = s.events := rfl
@[simp] theorem modPort_sched (s : State) (f : Port → Port) : (s.modPort f).sched = s.sched := rfl
@[simp] theorem modPort_log (s : State) (f : Port → Port) : (s.modPort f).log = s.log := rfl
@[simp] theorem modPort_windows (s : State) (f : Port → Port) : (s.modPort f).windows = s.windows := rfl
@[simp] theorem modPort_clips (s : State) (f : Port → Port) : (s.modPort f).clips = s.clips := rfl
@[simp] theorem modPort_slots (s : State) (f : Port → Port) : (s.modPort f).slots = s.slots := rfl
@[simp] theorem modPort_waitList (s : State) (f : Port → Port) : (s.modPort f).waitList = s.waitList := rfl
@[simp] theorem modPort_outLanes (s : State) (f : Port → Port) : (s.modPort f).outLanes = s.outLanes := rfl
@[simp] theorem modPort_alerts (s : State) (f : Port → Port) : (s.modPort f).alerts = s.alerts := rfl
@[simp] theorem modPort_lines (s : State) (f : Port → Port) : (s.modPort f).lines = s.lines := rfl
@[simp] theorem modPort_counters (s : State) (f : Port → Port) : (s.modPort f).counters = s.counters := rfl
@[simp] theorem modPort_channels (s : State) (f : Port → Port) : (s.modPort f).channels = s.channels := rfl
@[simp] theorem modPort_intake (s : State) (f : Port → Port) : (s.modPort f).intake = s.intake := rfl
@[simp] theorem modPort_storeFaultSeen (s : State) (f : Port → Port) : (s.modPort f).storeFaultSeen = s.storeFaultSeen := rfl
@[simp] theorem modPort_draws (s : State) (f : Port → Port) : (s.modPort f).draws = s.draws := rfl
@[simp] theorem modPort_lastResult (s : State) (f : Port → Port) : (s.modPort f).lastResult = s.lastResult := rfl
@[simp] theorem modPort_due (s : State) (f : Port → Port) : (s.modPort f).due = s.due := rfl
@[simp] theorem modPort_pending (s : State) (f : Port → Port) : (s.modPort f).pending = s.pending := rfl

/-! ### A read of one table under an update of another -/

@[simp] theorem modInLane_route (s : State) (i : InLaneId) (f : InLane → InLane) (j : RouteId) : (s.modInLane i f).route j = s.route j := rfl
@[simp] theorem modInLane_svc (s : State) (i : InLaneId) (f : InLane → InLane) (j : SvcId) : (s.modInLane i f).svc j = s.svc j := rfl
@[simp] theorem modInLane_event (s : State) (i : InLaneId) (f : InLane → InLane) (j : EventId) : (s.modInLane i f).event j = s.event j := rfl
@[simp] theorem modInLane_slot (s : State) (i : InLaneId) (f : InLane → InLane) (j : SlotId) : (s.modInLane i f).slot j = s.slot j := rfl
@[simp] theorem modInLane_outLane (s : State) (i : InLaneId) (f : InLane → InLane) (j : OutLaneId) : (s.modInLane i f).outLane j = s.outLane j := rfl
@[simp] theorem modInLane_alert (s : State) (i : InLaneId) (f : InLane → InLane) (j : AlertId) : (s.modInLane i f).alert j = s.alert j := rfl
@[simp] theorem modInLane_line (s : State) (i : InLaneId) (f : InLane → InLane) (j : LineId) : (s.modInLane i f).line j = s.line j := rfl
@[simp] theorem modInLane_counter (s : State) (i : InLaneId) (f : InLane → InLane) (j : CounterId) : (s.modInLane i f).counter j = s.counter j := rfl
@[simp] theorem modInLane_channel (s : State) (i : InLaneId) (f : InLane → InLane) (j : ChannelId) : (s.modInLane i f).channel j = s.channel j := rfl
@[simp] theorem modInLane_list (s : State) (i : InLaneId) (f : InLane → InLane) (j : SvcId) : (s.modInLane i f).list j = s.list j := rfl
@[simp] theorem modInLane_window (s : State) (i : InLaneId) (f : InLane → InLane) (j : WindowId) : (s.modInLane i f).window j = s.window j := rfl
@[simp] theorem modInLane_clip (s : State) (i : InLaneId) (f : InLane → InLane) (j : ClipId) : (s.modInLane i f).clip j = s.clip j := rfl
@[simp] theorem modRoute_inLane (s : State) (i : RouteId) (f : Route → Route) (j : InLaneId) : (s.modRoute i f).inLane j = s.inLane j := rfl
@[simp] theorem modRoute_svc (s : State) (i : RouteId) (f : Route → Route) (j : SvcId) : (s.modRoute i f).svc j = s.svc j := rfl
@[simp] theorem modRoute_event (s : State) (i : RouteId) (f : Route → Route) (j : EventId) : (s.modRoute i f).event j = s.event j := rfl
@[simp] theorem modRoute_slot (s : State) (i : RouteId) (f : Route → Route) (j : SlotId) : (s.modRoute i f).slot j = s.slot j := rfl
@[simp] theorem modRoute_outLane (s : State) (i : RouteId) (f : Route → Route) (j : OutLaneId) : (s.modRoute i f).outLane j = s.outLane j := rfl
@[simp] theorem modRoute_alert (s : State) (i : RouteId) (f : Route → Route) (j : AlertId) : (s.modRoute i f).alert j = s.alert j := rfl
@[simp] theorem modRoute_line (s : State) (i : RouteId) (f : Route → Route) (j : LineId) : (s.modRoute i f).line j = s.line j := rfl
@[simp] theorem modRoute_counter (s : State) (i : RouteId) (f : Route → Route) (j : CounterId) : (s.modRoute i f).counter j = s.counter j := rfl
@[simp] theorem modRoute_channel (s : State) (i : RouteId) (f : Route → Route) (j : ChannelId) : (s.modRoute i f).channel j = s.channel j := rfl
@[simp] theorem modRoute_list (s : State) (i : RouteId) (f : Route → Route) (j : SvcId) : (s.modRoute i f).list j = s.list j := rfl
@[simp] theorem modRoute_window (s : State) (i : RouteId) (f : Route → Route) (j : WindowId) : (s.modRoute i f).window j = s.window j := rfl
@[simp] theorem modRoute_clip (s : State) (i : RouteId) (f : Route → Route) (j : ClipId) : (s.modRoute i f).clip j = s.clip j := rfl
@[simp] theorem modSvc_inLane (s : State) (i : SvcId) (f : Service → Service) (j : InLaneId) : (s.modSvc i f).inLane j = s.inLane j := rfl
@[simp] theorem modSvc_route (s : State) (i : SvcId) (f : Service → Service) (j : RouteId) : (s.modSvc i f).route j = s.route j := rfl
@[simp] theorem modSvc_event (s : State) (i : SvcId) (f : Service → Service) (j : EventId) : (s.modSvc i f).event j = s.event j := rfl
@[simp] theorem modSvc_slot (s : State) (i : SvcId) (f : Service → Service) (j : SlotId) : (s.modSvc i f).slot j = s.slot j := rfl
@[simp] theorem modSvc_outLane (s : State) (i : SvcId) (f : Service → Service) (j : OutLaneId) : (s.modSvc i f).outLane j = s.outLane j := rfl
@[simp] theorem modSvc_alert (s : State) (i : SvcId) (f : Service → Service) (j : AlertId) : (s.modSvc i f).alert j = s.alert j := rfl
@[simp] theorem modSvc_line (s : State) (i : SvcId) (f : Service → Service) (j : LineId) : (s.modSvc i f).line j = s.line j := rfl
@[simp] theorem modSvc_counter (s : State) (i : SvcId) (f : Service → Service) (j : CounterId) : (s.modSvc i f).counter j = s.counter j := rfl
@[simp] theorem modSvc_channel (s : State) (i : SvcId) (f : Service → Service) (j : ChannelId) : (s.modSvc i f).channel j = s.channel j := rfl
@[simp] theorem modSvc_list (s : State) (i : SvcId) (f : Service → Service) (j : SvcId) : (s.modSvc i f).list j = s.list j := rfl
@[simp] theorem modSvc_window (s : State) (i : SvcId) (f : Service → Service) (j : WindowId) : (s.modSvc i f).window j = s.window j := rfl
@[simp] theorem modSvc_clip (s : State) (i : SvcId) (f : Service → Service) (j : ClipId) : (s.modSvc i f).clip j = s.clip j := rfl
@[simp] theorem modEvent_inLane (s : State) (i : EventId) (f : Event → Event) (j : InLaneId) : (s.modEvent i f).inLane j = s.inLane j := rfl
@[simp] theorem modEvent_route (s : State) (i : EventId) (f : Event → Event) (j : RouteId) : (s.modEvent i f).route j = s.route j := rfl
@[simp] theorem modEvent_svc (s : State) (i : EventId) (f : Event → Event) (j : SvcId) : (s.modEvent i f).svc j = s.svc j := rfl
@[simp] theorem modEvent_slot (s : State) (i : EventId) (f : Event → Event) (j : SlotId) : (s.modEvent i f).slot j = s.slot j := rfl
@[simp] theorem modEvent_outLane (s : State) (i : EventId) (f : Event → Event) (j : OutLaneId) : (s.modEvent i f).outLane j = s.outLane j := rfl
@[simp] theorem modEvent_alert (s : State) (i : EventId) (f : Event → Event) (j : AlertId) : (s.modEvent i f).alert j = s.alert j := rfl
@[simp] theorem modEvent_line (s : State) (i : EventId) (f : Event → Event) (j : LineId) : (s.modEvent i f).line j = s.line j := rfl
@[simp] theorem modEvent_counter (s : State) (i : EventId) (f : Event → Event) (j : CounterId) : (s.modEvent i f).counter j = s.counter j := rfl
@[simp] theorem modEvent_channel (s : State) (i : EventId) (f : Event → Event) (j : ChannelId) : (s.modEvent i f).channel j = s.channel j := rfl
@[simp] theorem modEvent_list (s : State) (i : EventId) (f : Event → Event) (j : SvcId) : (s.modEvent i f).list j = s.list j := rfl
@[simp] theorem modEvent_window (s : State) (i : EventId) (f : Event → Event) (j : WindowId) : (s.modEvent i f).window j = s.window j := rfl
@[simp] theorem modEvent_clip (s : State) (i : EventId) (f : Event → Event) (j : ClipId) : (s.modEvent i f).clip j = s.clip j := rfl
@[simp] theorem modSlot_inLane (s : State) (i : SlotId) (f : Slot → Slot) (j : InLaneId) : (s.modSlot i f).inLane j = s.inLane j := rfl
@[simp] theorem modSlot_route (s : State) (i : SlotId) (f : Slot → Slot) (j : RouteId) : (s.modSlot i f).route j = s.route j := rfl
@[simp] theorem modSlot_svc (s : State) (i : SlotId) (f : Slot → Slot) (j : SvcId) : (s.modSlot i f).svc j = s.svc j := rfl
@[simp] theorem modSlot_event (s : State) (i : SlotId) (f : Slot → Slot) (j : EventId) : (s.modSlot i f).event j = s.event j := rfl
@[simp] theorem modSlot_outLane (s : State) (i : SlotId) (f : Slot → Slot) (j : OutLaneId) : (s.modSlot i f).outLane j = s.outLane j := rfl
@[simp] theorem modSlot_alert (s : State) (i : SlotId) (f : Slot → Slot) (j : AlertId) : (s.modSlot i f).alert j = s.alert j := rfl
@[simp] theorem modSlot_line (s : State) (i : SlotId) (f : Slot → Slot) (j : LineId) : (s.modSlot i f).line j = s.line j := rfl
@[simp] theorem modSlot_counter (s : State) (i : SlotId) (f : Slot → Slot) (j : CounterId) : (s.modSlot i f).counter j = s.counter j := rfl
@[simp] theorem modSlot_channel (s : State) (i : SlotId) (f : Slot → Slot) (j : ChannelId) : (s.modSlot i f).channel j = s.channel j := rfl
@[simp] theorem modSlot_list (s : State) (i : SlotId) (f : Slot → Slot) (j : SvcId) : (s.modSlot i f).list j = s.list j := rfl
@[simp] theorem modSlot_window (s : State) (i : SlotId) (f : Slot → Slot) (j : WindowId) : (s.modSlot i f).window j = s.window j := rfl
@[simp] theorem modSlot_clip (s : State) (i : SlotId) (f : Slot → Slot) (j : ClipId) : (s.modSlot i f).clip j = s.clip j := rfl
@[simp] theorem modOutLane_inLane (s : State) (i : OutLaneId) (f : OutLane → OutLane) (j : InLaneId) : (s.modOutLane i f).inLane j = s.inLane j := rfl
@[simp] theorem modOutLane_route (s : State) (i : OutLaneId) (f : OutLane → OutLane) (j : RouteId) : (s.modOutLane i f).route j = s.route j := rfl
@[simp] theorem modOutLane_svc (s : State) (i : OutLaneId) (f : OutLane → OutLane) (j : SvcId) : (s.modOutLane i f).svc j = s.svc j := rfl
@[simp] theorem modOutLane_event (s : State) (i : OutLaneId) (f : OutLane → OutLane) (j : EventId) : (s.modOutLane i f).event j = s.event j := rfl
@[simp] theorem modOutLane_slot (s : State) (i : OutLaneId) (f : OutLane → OutLane) (j : SlotId) : (s.modOutLane i f).slot j = s.slot j := rfl
@[simp] theorem modOutLane_alert (s : State) (i : OutLaneId) (f : OutLane → OutLane) (j : AlertId) : (s.modOutLane i f).alert j = s.alert j := rfl
@[simp] theorem modOutLane_line (s : State) (i : OutLaneId) (f : OutLane → OutLane) (j : LineId) : (s.modOutLane i f).line j = s.line j := rfl
@[simp] theorem modOutLane_counter (s : State) (i : OutLaneId) (f : OutLane → OutLane) (j : CounterId) : (s.modOutLane i f).counter j = s.counter j := rfl
@[simp] theorem modOutLane_channel (s : State) (i : OutLaneId) (f : OutLane → OutLane) (j : ChannelId) : (s.modOutLane i f).channel j = s.channel j := rfl
@[simp] theorem modOutLane_list (s : State) (i : OutLaneId) (f : OutLane → OutLane) (j : SvcId) : (s.modOutLane i f).list j = s.list j := rfl
@[simp] theorem modOutLane_window (s : State) (i : OutLaneId) (f : OutLane → OutLane) (j : WindowId) : (s.modOutLane i f).window j = s.window j := rfl
@[simp] theorem modOutLane_clip (s : State) (i : OutLaneId) (f : OutLane → OutLane) (j : ClipId) : (s.modOutLane i f).clip j = s.clip j := rfl
@[simp] theorem modAlert_inLane (s : State) (i : AlertId) (f : Alert → Alert) (j : InLaneId) : (s.modAlert i f).inLane j = s.inLane j := rfl
@[simp] theorem modAlert_route (s : State) (i : AlertId) (f : Alert → Alert) (j : RouteId) : (s.modAlert i f).route j = s.route j := rfl
@[simp] theorem modAlert_svc (s : State) (i : AlertId) (f : Alert → Alert) (j : SvcId) : (s.modAlert i f).svc j = s.svc j := rfl
@[simp] theorem modAlert_event (s : State) (i : AlertId) (f : Alert → Alert) (j : EventId) : (s.modAlert i f).event j = s.event j := rfl
@[simp] theorem modAlert_slot (s : State) (i : AlertId) (f : Alert → Alert) (j : SlotId) : (s.modAlert i f).slot j = s.slot j := rfl
@[simp] theorem modAlert_outLane (s : State) (i : AlertId) (f : Alert → Alert) (j : OutLaneId) : (s.modAlert i f).outLane j = s.outLane j := rfl
@[simp] theorem modAlert_line (s : State) (i : AlertId) (f : Alert → Alert) (j : LineId) : (s.modAlert i f).line j = s.line j := rfl
@[simp] theorem modAlert_counter (s : State) (i : AlertId) (f : Alert → Alert) (j : CounterId) : (s.modAlert i f).counter j = s.counter j := rfl
@[simp] theorem modAlert_channel (s : State) (i : AlertId) (f : Alert → Alert) (j : ChannelId) : (s.modAlert i f).channel j = s.channel j := rfl
@[simp] theorem modAlert_list (s : State) (i : AlertId) (f : Alert → Alert) (j : SvcId) : (s.modAlert i f).list j = s.list j := rfl
@[simp] theorem modAlert_window (s : State) (i : AlertId) (f : Alert → Alert) (j : WindowId) : (s.modAlert i f).window j = s.window j := rfl
@[simp] theorem modAlert_clip (s : State) (i : AlertId) (f : Alert → Alert) (j : ClipId) : (s.modAlert i f).clip j = s.clip j := rfl
@[simp] theorem modLine_inLane (s : State) (i : LineId) (f : CueLine → CueLine) (j : InLaneId) : (s.modLine i f).inLane j = s.inLane j := rfl
@[simp] theorem modLine_route (s : State) (i : LineId) (f : CueLine → CueLine) (j : RouteId) : (s.modLine i f).route j = s.route j := rfl
@[simp] theorem modLine_svc (s : State) (i : LineId) (f : CueLine → CueLine) (j : SvcId) : (s.modLine i f).svc j = s.svc j := rfl
@[simp] theorem modLine_event (s : State) (i : LineId) (f : CueLine → CueLine) (j : EventId) : (s.modLine i f).event j = s.event j := rfl
@[simp] theorem modLine_slot (s : State) (i : LineId) (f : CueLine → CueLine) (j : SlotId) : (s.modLine i f).slot j = s.slot j := rfl
@[simp] theorem modLine_outLane (s : State) (i : LineId) (f : CueLine → CueLine) (j : OutLaneId) : (s.modLine i f).outLane j = s.outLane j := rfl
@[simp] theorem modLine_alert (s : State) (i : LineId) (f : CueLine → CueLine) (j : AlertId) : (s.modLine i f).alert j = s.alert j := rfl
@[simp] theorem modLine_counter (s : State) (i : LineId) (f : CueLine → CueLine) (j : CounterId) : (s.modLine i f).counter j = s.counter j := rfl
@[simp] theorem modLine_channel (s : State) (i : LineId) (f : CueLine → CueLine) (j : ChannelId) : (s.modLine i f).channel j = s.channel j := rfl
@[simp] theorem modLine_list (s : State) (i : LineId) (f : CueLine → CueLine) (j : SvcId) : (s.modLine i f).list j = s.list j := rfl
@[simp] theorem modLine_window (s : State) (i : LineId) (f : CueLine → CueLine) (j : WindowId) : (s.modLine i f).window j = s.window j := rfl
@[simp] theorem modLine_clip (s : State) (i : LineId) (f : CueLine → CueLine) (j : ClipId) : (s.modLine i f).clip j = s.clip j := rfl
@[simp] theorem modCounter_inLane (s : State) (i : CounterId) (f : Counter → Counter) (j : InLaneId) : (s.modCounter i f).inLane j = s.inLane j := rfl
@[simp] theorem modCounter_route (s : State) (i : CounterId) (f : Counter → Counter) (j : RouteId) : (s.modCounter i f).route j = s.route j := rfl
@[simp] theorem modCounter_svc (s : State) (i : CounterId) (f : Counter → Counter) (j : SvcId) : (s.modCounter i f).svc j = s.svc j := rfl
@[simp] theorem modCounter_event (s : State) (i : CounterId) (f : Counter → Counter) (j : EventId) : (s.modCounter i f).event j = s.event j := rfl
@[simp] theorem modCounter_slot (s : State) (i : CounterId) (f : Counter → Counter) (j : SlotId) : (s.modCounter i f).slot j = s.slot j := rfl
@[simp] theorem modCounter_outLane (s : State) (i : CounterId) (f : Counter → Counter) (j : OutLaneId) : (s.modCounter i f).outLane j = s.outLane j := rfl
@[simp] theorem modCounter_alert (s : State) (i : CounterId) (f : Counter → Counter) (j : AlertId) : (s.modCounter i f).alert j = s.alert j := rfl
@[simp] theorem modCounter_line (s : State) (i : CounterId) (f : Counter → Counter) (j : LineId) : (s.modCounter i f).line j = s.line j := rfl
@[simp] theorem modCounter_channel (s : State) (i : CounterId) (f : Counter → Counter) (j : ChannelId) : (s.modCounter i f).channel j = s.channel j := rfl
@[simp] theorem modCounter_list (s : State) (i : CounterId) (f : Counter → Counter) (j : SvcId) : (s.modCounter i f).list j = s.list j := rfl
@[simp] theorem modCounter_window (s : State) (i : CounterId) (f : Counter → Counter) (j : WindowId) : (s.modCounter i f).window j = s.window j := rfl
@[simp] theorem modCounter_clip (s : State) (i : CounterId) (f : Counter → Counter) (j : ClipId) : (s.modCounter i f).clip j = s.clip j := rfl
@[simp] theorem modChannel_inLane (s : State) (i : ChannelId) (f : Channel → Channel) (j : InLaneId) : (s.modChannel i f).inLane j = s.inLane j := rfl
@[simp] theorem modChannel_route (s : State) (i : ChannelId) (f : Channel → Channel) (j : RouteId) : (s.modChannel i f).route j = s.route j := rfl
@[simp] theorem modChannel_svc (s : State) (i : ChannelId) (f : Channel → Channel) (j : SvcId) : (s.modChannel i f).svc j = s.svc j := rfl
@[simp] theorem modChannel_event (s : State) (i : ChannelId) (f : Channel → Channel) (j : EventId) : (s.modChannel i f).event j = s.event j := rfl
@[simp] theorem modChannel_slot (s : State) (i : ChannelId) (f : Channel → Channel) (j : SlotId) : (s.modChannel i f).slot j = s.slot j := rfl
@[simp] theorem modChannel_outLane (s : State) (i : ChannelId) (f : Channel → Channel) (j : OutLaneId) : (s.modChannel i f).outLane j = s.outLane j := rfl
@[simp] theorem modChannel_alert (s : State) (i : ChannelId) (f : Channel → Channel) (j : AlertId) : (s.modChannel i f).alert j = s.alert j := rfl
@[simp] theorem modChannel_line (s : State) (i : ChannelId) (f : Channel → Channel) (j : LineId) : (s.modChannel i f).line j = s.line j := rfl
@[simp] theorem modChannel_counter (s : State) (i : ChannelId) (f : Channel → Channel) (j : CounterId) : (s.modChannel i f).counter j = s.counter j := rfl
@[simp] theorem modChannel_list (s : State) (i : ChannelId) (f : Channel → Channel) (j : SvcId) : (s.modChannel i f).list j = s.list j := rfl
@[simp] theorem modChannel_window (s : State) (i : ChannelId) (f : Channel → Channel) (j : WindowId) : (s.modChannel i f).window j = s.window j := rfl
@[simp] theorem modChannel_clip (s : State) (i : ChannelId) (f : Channel → Channel) (j : ClipId) : (s.modChannel i f).clip j = s.clip j := rfl
@[simp] theorem setList_inLane (s : State) (i : SvcId) (x : List EventId) (j : InLaneId) : (s.setList i x).inLane j = s.inLane j := rfl
@[simp] theorem setList_route (s : State) (i : SvcId) (x : List EventId) (j : RouteId) : (s.setList i x).route j = s.route j := rfl
@[simp] theorem setList_svc (s : State) (i : SvcId) (x : List EventId) (j : SvcId) : (s.setList i x).svc j = s.svc j := rfl
@[simp] theorem setList_event (s : State) (i : SvcId) (x : List EventId) (j : EventId) : (s.setList i x).event j = s.event j := rfl
@[simp] theorem setList_slot (s : State) (i : SvcId) (x : List EventId) (j : SlotId) : (s.setList i x).slot j = s.slot j := rfl
@[simp] theorem setList_outLane (s : State) (i : SvcId) (x : List EventId) (j : OutLaneId) : (s.setList i x).outLane j = s.outLane j := rfl
@[simp] theorem setList_alert (s : State) (i : SvcId) (x : List EventId) (j : AlertId) : (s.setList i x).alert j = s.alert j := rfl
@[simp] theorem setList_line (s : State) (i : SvcId) (x : List EventId) (j : LineId) : (s.setList i x).line j = s.line j := rfl
@[simp] theorem setList_counter (s : State) (i : SvcId) (x : List EventId) (j : CounterId) : (s.setList i x).counter j = s.counter j := rfl
@[simp] theorem setList_channel (s : State) (i : SvcId) (x : List EventId) (j : ChannelId) : (s.setList i x).channel j = s.channel j := rfl
@[simp] theorem setList_window (s : State) (i : SvcId) (x : List EventId) (j : WindowId) : (s.setList i x).window j = s.window j := rfl
@[simp] theorem setList_clip (s : State) (i : SvcId) (x : List EventId) (j : ClipId) : (s.setList i x).clip j = s.clip j := rfl
@[simp] theorem setWindow_inLane (s : State) (i : WindowId) (x : Window) (j : InLaneId) : (s.setWindow i x).inLane j = s.inLane j := rfl
@[simp] theorem setWindow_route (s : State) (i : WindowId) (x : Window) (j : RouteId) : (s.setWindow i x).route j = s.route j := rfl
@[simp] theorem setWindow_svc (s : State) (i : WindowId) (x : Window) (j : SvcId) : (s.setWindow i x).svc j = s.svc j := rfl
@[simp] theorem setWindow_event (s : State) (i : WindowId) (x : Window) (j : EventId) : (s.setWindow i x).event j = s.event j := rfl
@[simp] theorem setWindow_slot (s : State) (i : WindowId) (x : Window) (j : SlotId) : (s.setWindow i x).slot j = s.slot j := rfl
@[simp] theorem setWindow_outLane (s : State) (i : WindowId) (x : Window) (j : OutLaneId) : (s.setWindow i x).outLane j = s.outLane j := rfl
@[simp] theorem setWindow_alert (s : State) (i : WindowId) (x : Window) (j : AlertId) : (s.setWindow i x).alert j = s.alert j := rfl
@[simp] theorem setWindow_line (s : State) (i : WindowId) (x : Window) (j : LineId) : (s.setWindow i x).line j = s.line j := rfl
@[simp] theorem setWindow_counter (s : State) (i : WindowId) (x : Window) (j : CounterId) : (s.setWindow i x).counter j = s.counter j := rfl
@[simp] theorem setWindow_channel (s : State) (i : WindowId) (x : Window) (j : ChannelId) : (s.setWindow i x).channel j = s.channel j := rfl
@[simp] theorem setWindow_list (s : State) (i : WindowId) (x : Window) (j : SvcId) : (s.setWindow i x).list j = s.list j := rfl
@[simp] theorem setWindow_clip (s : State) (i : WindowId) (x : Window) (j : ClipId) : (s.setWindow i x).clip j = s.clip j := rfl
@[simp] theorem setClip_inLane (s : State) (i : ClipId) (x : Clip) (j : InLaneId) : (s.setClip i x).inLane j = s.inLane j := rfl
@[simp] theorem setClip_route (s : State) (i : ClipId) (x : Clip) (j : RouteId) : (s.setClip i x).route j = s.route j := rfl
@[simp] theorem setClip_svc (s : State) (i : ClipId) (x : Clip) (j : SvcId) : (s.setClip i x).svc j = s.svc j := rfl
@[simp] theorem setClip_event (s : State) (i : ClipId) (x : Clip) (j : EventId) : (s.setClip i x).event j = s.event j := rfl
@[simp] theorem setClip_slot (s : State) (i : ClipId) (x : Clip) (j : SlotId) : (s.setClip i x).slot j = s.slot j := rfl
@[simp] theorem setClip_outLane (s : State) (i : ClipId) (x : Clip) (j : OutLaneId) : (s.setClip i x).outLane j = s.outLane j := rfl
@[simp] theorem setClip_alert (s : State) (i : ClipId) (x : Clip) (j : AlertId) : (s.setClip i x).alert j = s.alert j := rfl
@[simp] theorem setClip_line (s : State) (i : ClipId) (x : Clip) (j : LineId) : (s.setClip i x).line j = s.line j := rfl
@[simp] theorem setClip_counter (s : State) (i : ClipId) (x : Clip) (j : CounterId) : (s.setClip i x).counter j = s.counter j := rfl
@[simp] theorem setClip_channel (s : State) (i : ClipId) (x : Clip) (j : ChannelId) : (s.setClip i x).channel j = s.channel j := rfl
@[simp] theorem setClip_list (s : State) (i : ClipId) (x : Clip) (j : SvcId) : (s.setClip i x).list j = s.list j := rfl
@[simp] theorem setClip_window (s : State) (i : ClipId) (x : Clip) (j : WindowId) : (s.setClip i x).window j = s.window j := rfl
@[simp] theorem modPort_inLane (s : State) (f : Port → Port) (j : InLaneId) : (s.modPort f).inLane j = s.inLane j := rfl
@[simp] theorem modPort_route (s : State) (f : Port → Port) (j : RouteId) : (s.modPort f).route j = s.route j := rfl
@[simp] theorem modPort_svc (s : State) (f : Port → Port) (j : SvcId) : (s.modPort f).svc j = s.svc j := rfl
@[simp] theorem modPort_event (s : State) (f : Port → Port) (j : EventId) : (s.modPort f).event j = s.event j := rfl
@[simp] theorem modPort_slot (s : State) (f : Port → Port) (j : SlotId) : (s.modPort f).slot j = s.slot j := rfl
@[simp] theorem modPort_outLane (s : State) (f : Port → Port) (j : OutLaneId) : (s.modPort f).outLane j = s.outLane j := rfl
@[simp] theorem modPort_alert (s : State) (f : Port → Port) (j : AlertId) : (s.modPort f).alert j = s.alert j := rfl
@[simp] theorem modPort_line (s : State) (f : Port → Port) (j : LineId) : (s.modPort f).line j = s.line j := rfl
@[simp] theorem modPort_counter (s : State) (f : Port → Port) (j : CounterId) : (s.modPort f).counter j = s.counter j := rfl
@[simp] theorem modPort_channel (s : State) (f : Port → Port) (j : ChannelId) : (s.modPort f).channel j = s.channel j := rfl
@[simp] theorem modPort_list (s : State) (f : Port → Port) (j : SvcId) : (s.modPort f).list j = s.list j := rfl
@[simp] theorem modPort_window (s : State) (f : Port → Port) (j : WindowId) : (s.modPort f).window j = s.window j := rfl
@[simp] theorem modPort_clip (s : State) (f : Port → Port) (j : ClipId) : (s.modPort f).clip j = s.clip j := rfl

/-! ### Equal reads are equal tables -/

theorem inLanes_ext {s t : State} (h : ∀ i, t.inLane i = s.inLane i) : t.inLanes = s.inLanes := Tbl.ext_get h
theorem routes_ext {s t : State} (h : ∀ i, t.route i = s.route i) : t.routes = s.routes := Tbl.ext_get h
theorem services_ext {s t : State} (h : ∀ i, t.svc i = s.svc i) : t.services = s.services := Tbl.ext_get h
theorem events_ext {s t : State} (h : ∀ i, t.event i = s.event i) : t.events = s.events := Tbl.ext_get h
theorem slots_ext {s t : State} (h : ∀ i, t.slot i = s.slot i) : t.slots = s.slots := Tbl.ext_get h
theorem outLanes_ext {s t : State} (h : ∀ i, t.outLane i = s.outLane i) : t.outLanes = s.outLanes := Tbl.ext_get h
theorem alerts_ext {s t : State} (h : ∀ i, t.alert i = s.alert i) : t.alerts = s.alerts := Tbl.ext_get h
theorem lines_ext {s t : State} (h : ∀ i, t.line i = s.line i) : t.lines = s.lines := Tbl.ext_get h
theorem counters_ext {s t : State} (h : ∀ i, t.counter i = s.counter i) : t.counters = s.counters := Tbl.ext_get h
theorem channels_ext {s t : State} (h : ∀ i, t.channel i = s.channel i) : t.channels = s.channels := Tbl.ext_get h
theorem sched_ext {s t : State} (h : ∀ i, t.list i = s.list i) : t.sched = s.sched := Tbl.ext_get h
theorem windows_ext {s t : State} (h : ∀ i, t.window i = s.window i) : t.windows = s.windows := Tbl.ext_get h
theorem clips_ext {s t : State} (h : ∀ i, t.clip i = s.clip i) : t.clips = s.clips := Tbl.ext_get h

end Sys2Proof.Machine.State
end

