-- ==== Sys2Proof/Laws/Writes.lean ====
section
/-!
SUPPORT. What the shared operations of the writes and records can do: the index, the checks in order, the refusal.
-/
namespace Sys2Proof.Machine

theorem index?_lt {n k : Nat} (h : k < n) : index? n k = some ⟨k, h⟩ := by simp [index?, h]
theorem index?_ge {n k : Nat} (h : n ≤ k) : index? n k = none := by simp [index?, Nat.not_lt.2 h]

theorem atIndex_lt {n i : Nat} (h : i < n) (s : State) (f : Fin n → State × Code) :
    atIndex n i s f = f ⟨i, h⟩ := by simp [atIndex, index?_lt h]
theorem atIndex_ge {n i : Nat} (h : n ≤ i) (s : State) (f : Fin n → State × Code) :
    atIndex n i s f = (s, .badIndex) := by simp [atIndex, index?_ge h]
theorem entryAt_lt {n i : Nat} (h : i < n) (s : State) (f : Fin n → Answered) : entryAt n i s f = f ⟨i, h⟩ := by
  simp [entryAt, index?_lt h]
theorem entryAt_ge {n i : Nat} (h : n ≤ i) (s : State) (f : Fin n → Answered) :
    entryAt n i s f = (s, Code.badIndex.only) := by simp [entryAt, index?_ge h]

@[simp] theorem refuseIf_true (c : Code) (s : State) (r : Answered) : refuseIf true c s r = (s, c.only) := rfl
@[simp] theorem refuseIf_false (c : Code) (s : State) (r : Answered) : refuseIf false c s r = r := rfl

/-- No check fails exactly when every one of them passes. -/
theorem firstFailure_none {l : List (Bool × Code)} : firstFailure l = none ↔ ∀ x ∈ l, x.1 = false := by
  induction l with
  | nil => simp [firstFailure]
  | cons x l ih =>
    obtain ⟨b, c⟩ := x
    cases b <;> simp [firstFailure, ih]

/-- The first failing check is one of the checks, it fails, and those before it pass. -/
theorem firstFailure_some {l : List (Bool × Code)} {c : Code} (h : firstFailure l = some c) :
    ∃ a b, l = a ++ (true, c) :: b ∧ ∀ x ∈ a, x.1 = false := by
  induction l with
  | nil => simp [firstFailure] at h
  | cons x l ih =>
    obtain ⟨b, d⟩ := x
    cases b
    · simp only [firstFailure, Bool.false_eq_true, if_false] at h
      obtain ⟨a, b, rfl, ha⟩ := ih h
      exact ⟨(false, d) :: a, b, rfl, by simpa using ha⟩
    · simp only [firstFailure, if_true, Option.some.injEq] at h
      exact ⟨[], l, by simp [h], by simp⟩

/-- A checked write either leaves the state as it was and answers the first failing check's code, or passes every check,
takes effect and answers OK. -/
theorem checked_cases (checks : List (Bool × Code)) (s t : State) :
    (∃ c, firstFailure checks = some c ∧ checked checks s t = (s, c)) ∨
    ((∀ x ∈ checks, x.1 = false) ∧ checked checks s t = (t, .ok)) := by
  unfold checked
  cases h : firstFailure checks with
  | none => exact .inr ⟨firstFailure_none.1 h, rfl⟩
  | some c => exact .inl ⟨c, rfl, rfl⟩

theorem checked_ok {checks : List (Bool × Code)} {s t : State} (h : ∀ x ∈ checks, x.1 = false) :
    checked checks s t = (t, .ok) := by rw [checked, firstFailure_none.2 h]

/-- The stored guard is the greater of the effective class and the written guard clamped to 0-3 (R179). -/
theorem storedGuard_eq (c : Fin 4) (g : Nat) : storedGuard c g = max c (Fin.ofNat 4 (min g 3)) := by
  unfold storedGuard
  congr 1
  apply Fin.ext
  simp only [Fin.ofNat]
  omega

/-- A step that has fallen due is carried out once; any other leaves the state as it is. -/
theorem takeDue_cases (d : Due) (s : State) :
    (d ∈ s.due ∧ takeDue d s = runDue d { s with due := s.due.erase d }) ∨ (d ∉ s.due ∧ takeDue d s = s) := by
  by_cases h : d ∈ s.due <;> simp [takeDue, State.isDue, h]

@[simp] theorem record_result (r : Answered) : (record r).lastResult = some r.2 := rfl
@[simp] theorem record_mk (s : State) (r : Result) : record (s, r) = s.answered r := rfl
@[simp] theorem codeOnly_mk (s : State) (c : Code) : codeOnly (s, c) = (s, ⟨c, 0, []⟩) := rfl
@[simp] theorem answered_code (s : State) (c : Code) : s.answered ⟨c, 0, []⟩ = s.codeAnswered c := rfl

end Sys2Proof.Machine
end

