-- ==== Sys2Proof/Laws/Cue.lean ====
section
/-!
SUPPORT. The cue unit and the port's test as frames: what follows an event of the part reaches the cue lines, the
counters, the due steps and the port's phase, and nothing else.
-/
namespace Sys2Proof.Machine

/-- `t` differs from `s` in the cue lines, the counters and the due steps at most. -/
def CueOnly (s t : State) : Prop := ∃ l c d, t = { s with lines := l, counters := c, due := d }

theorem CueOnly.refl (s : State) : CueOnly s s := ⟨s.lines, s.counters, s.due, rfl⟩

theorem CueOnly.trans {s t u : State} (h : CueOnly s t) (k : CueOnly t u) : CueOnly s u := by
  obtain ⟨l, c, d, rfl⟩ := h
  obtain ⟨l', c', d', rfl⟩ := k
  exact ⟨l', c', d', rfl⟩

theorem modLine_cueOnly (n : LineId) (f : CueLine → CueLine) (s : State) : CueOnly s (s.modLine n f) :=
  ⟨_, s.counters, s.due, rfl⟩

theorem modCounter_cueOnly (c : CounterId) (f : Counter → Counter) (s : State) : CueOnly s (s.modCounter c f) :=
  ⟨s.lines, _, s.due, rfl⟩

theorem addDue_cueOnly (d : Due) (s : State) : CueOnly s (s.addDue d) := ⟨s.lines, s.counters, _, rfl⟩

theorem dropClocks_cueOnly (s : State) (c : CounterId) : CueOnly s (s.dropClocks c) := ⟨s.lines, s.counters, _, rfl⟩

/-- What a stop drops is exactly what waits for the counter (R165). -/
theorem mem_dropClocks {s : State} {c : CounterId} {d : Due} :
    d ∈ (s.dropClocks c).due ↔ d ∈ s.due ∧ d ≠ .clock c ∧ d ≠ .pulse c := by
  unfold State.dropClocks
  rw [List.mem_filter]
  cases d <;> simp [Due.clocks]

/-- The first step of an expiry reaches the counter and what waits for it only (R167). -/
theorem expireCounter_cueOnly (c : CounterId) (s : State) : CueOnly s (expireCounter c s) := by
  unfold expireCounter
  dsimp only
  split
  · exact (modCounter_cueOnly c _ s).trans (dropClocks_cueOnly _ c)
  · exact modCounter_cueOnly c _ s

/-- A fold of updates that each reach the cue unit only reaches the cue unit only. -/
theorem CueOnly.foldl {α : Type} {f : State → α → State} (h : ∀ s a, CueOnly s (f s a)) :
    ∀ (l : List α) (s : State), CueOnly s (l.foldl f s)
  | [], s => CueOnly.refl s
  | a :: l, s => (h s a).trans (CueOnly.foldl h l (f s a))

theorem clockCounter_cueOnly (c : CounterId) (s : State) : CueOnly s (clockCounter c s) := by
  unfold clockCounter
  dsimp only
  split
  · exact CueOnly.refl s
  · split
    · exact CueOnly.refl s
    · split
      · exact addDue_cueOnly _ _
      · exact modCounter_cueOnly _ _ _

theorem clockMs_cueOnly (s : State) (c : CounterId) : CueOnly s (clockMs s c) := by
  unfold clockMs
  split
  · exact addDue_cueOnly _ _
  · exact clockCounter_cueOnly _ _

theorem clockSource_cueOnly (src : ClockSource) (s : State) : CueOnly s (clockSource src s) :=
  CueOnly.foldl (fun s c => clockCounter_cueOnly c s) _ s

theorem lineEdge_cueOnly (n : LineId) (new : Level) (s : State) : CueOnly s (lineEdge n new s) := by
  unfold lineEdge
  dsimp only
  split
  · exact (modLine_cueOnly n _ s).trans (clockSource_cueOnly _ _)
  · exact modLine_cueOnly n _ s

theorem drive_cueOnly (n : LineId) (new : Level) (s : State) : CueOnly s (drive n new s) := by
  unfold drive
  dsimp only
  split
  · exact modLine_cueOnly n _ s
  · exact (modLine_cueOnly n _ s).trans (lineEdge_cueOnly _ _ _)

theorem followTally_cueOnly (s : State) (n : LineId) : CueOnly s (followTally s n) := by
  unfold followTally
  split
  · exact drive_cueOnly _ _ _
  · exact CueOnly.refl s

/-- The tallies reach the cue unit only (R161). -/
theorem settleTallies_cueOnly (s : State) : CueOnly s (settleTallies s) := CueOnly.foldl followTally_cueOnly _ s

theorem sampleLine_cueOnly (pins : BitVec 8) (s : State) (n : LineId) : CueOnly s (sampleLine pins s n) := by
  unfold sampleLine
  dsimp only
  split
  · exact CueOnly.refl s
  · split
    · exact modLine_cueOnly _ _ _
    · split
      · exact (modLine_cueOnly _ _ _).trans (modLine_cueOnly _ _ _)
      · split
        · exact (modLine_cueOnly _ _ _).trans (modLine_cueOnly _ _ _)
        · exact (modLine_cueOnly _ _ _).trans (addDue_cueOnly _ _)

theorem debounceStep_cueOnly (n : LineId) (s : State) : CueOnly s (debounceStep n s) := by
  unfold debounceStep
  dsimp only
  split
  · exact (modLine_cueOnly _ _ _).trans (lineEdge_cueOnly _ _ _)
  · exact CueOnly.refl s

/-- The port's test either leaves the state or moves an IDLE port to REQUESTING (R110). -/
theorem portTest_cases (s : State) :
    (portTest s = s ∧ ¬(s.port.phase = .idle ∧ (s.port.resume ∨ cellWanted s))) ∨
    (portTest s = s.modPort (fun p => { p with phase := .requesting }) ∧ s.port.phase = .idle ∧
      (s.port.resume ∨ cellWanted s)) := by
  unfold portTest
  split
  · next h => exact .inr ⟨rfl, h⟩
  · next h => exact .inl ⟨rfl, h⟩

/-- A port that is not IDLE keeps its phase in the test (R110). -/
theorem portTest_busy {s : State} (h : s.port.phase ≠ .idle) : portTest s = s := by simp [portTest, h]

/-- What follows an event of the part reaches the cue unit and the port's phase only (R110, R161). -/
theorem finish_frame (s : State) :
    ∃ l c d ph, finish s = { s with lines := l, counters := c, due := d, port := { s.port with phase := ph } } := by
  obtain ⟨l, c, d, h⟩ := settleTallies_cueOnly s
  unfold finish
  rw [h]
  rcases portTest_cases { s with lines := l, counters := c, due := d } with ⟨e, -⟩ | ⟨e, -, -⟩
  · exact ⟨l, c, d, s.port.phase, e⟩
  · exact ⟨l, c, d, .requesting, e⟩

/-- An event that drops no cell of an OWNER port is followed by the tallies and the port's test alone (R110, R120,
R161). -/
theorem finishFrom_eq {s t : State} (h : cellDropped s t = false) : finishFrom s t = finish t := by
  unfold finishFrom
  rw [h]
  rfl

theorem cellDropped_of_fetch_eq {s t : State} (h : t.port.fetch = s.port.fetch) : cellDropped s t = false := by
  unfold cellDropped
  rw [h]
  cases s.port.fetch <;> simp

theorem cellDropped_of_no_fetch {s t : State} (h : s.port.fetch = none) : cellDropped s t = false := by
  simp [cellDropped, h]

/-- An event that keeps the port's current fetch is followed by the tallies and the port's test alone. -/
theorem event_eq {f : State → State} {s : State} (h : (f s).port.fetch = s.port.fetch) :
    event f s = finish (oneEvent f s) :=
  finishFrom_eq (cellDropped_of_fetch_eq h)

/-- An event of the part that appends no log entry leaves the log as it was. -/
theorem oneEvent_of_log_eq {f : State → State} {s : State} (h : (f s).log = s.log) : oneEvent f s = f s := by
  unfold oneEvent
  dsimp only
  rw [h]
  simp only [List.drop_length, List.take_length, sortEntries, List.foldr_nil, List.append_nil]
  rw [← h]

end Sys2Proof.Machine
end

