-- ==== Sys2Proof/Laws/Operations.lean ====
section
/-!
SUPPORT. One lemma for each shared operation of the blocks that says all it can do, for proofs to cite in its place.
-/
namespace Sys2Proof.Machine

/-! ### What follows an event of the part -/

/-- An output line that is at its tally's level follows it without a change (R161). -/
theorem followTally_eq {s : State} (h : OutputLinesFollow s) (n : LineId) : followTally s n = s := by
  unfold followTally
  split
  · next hd =>
    obtain ⟨h1, h2⟩ := h n hd
    have e : s.modLine n (fun x => { x with sampled := tallyLevel s (s.line n).tally }) = s := by
      rw [← h1]
      show { s with lines := s.lines.put n (s.line n) } = s
      have : s.lines.put n (s.line n) = s.lines := Tbl.ext_get fun j => by
        rw [Tbl.get_put]
        split
        · next hj => rw [hj]; rfl
        · rfl
      rw [this]
    unfold drive
    rw [e]
    exact if_pos h2
  · rfl

/-- The tallies leave a state whose output lines are at their tallies' levels (R161). -/
theorem settleTallies_eq {s : State} (h : OutputLinesFollow s) : settleTallies s = s := by
  have : ∀ l : List LineId, l.foldl followTally s = s := fun l => by
    induction l with
    | nil => rfl
    | cons n l ih => rw [List.foldl_cons, followTally_eq h n, ih]
  exact this _

/-- A cell that may be begun is wanted: the duty limit leaves one, and some slot wants a cell (R95, R110). -/
theorem cellWanted_iff (s : State) :
    cellWanted s = true ↔ s.port.duty < s.port.dutyLimit ∧ ∃ k, (s.slot k).wants = true := by
  unfold cellWanted wantingSlots
  rw [Bool.and_eq_true, decide_eq_true_iff, Bool.not_eq_true', Bool.eq_false_iff, ne_eq, Tbl.indices_isEmpty]
  simp [State.slot]

/-- The port's test leaves a port that already asks when it should (R110). -/
theorem portTest_eq {s : State} (h : PortAsksWhenWanted s) : portTest s = s := by
  unfold portTest
  split
  · next hc =>
    obtain ⟨hi, hw⟩ := hc
    obtain ⟨hr, hn⟩ := h hi
    rw [hr, cellWanted_iff] at hw
    obtain hw | ⟨hd, k, hk⟩ := hw
    · cases hw
    · rw [hn hd k] at hk; cases hk
  · rfl

/-- After the port's test the port asks when it should (R110). -/
theorem portTest_asks (s : State) : PortAsksWhenWanted (portTest s) := by
  intro hi
  rcases portTest_cases s with ⟨e, hn⟩ | ⟨e, -, -⟩
  · rw [e] at hi ⊢
    have hw : ¬(s.port.resume ∨ cellWanted s) := fun h => hn ⟨hi, h⟩
    refine ⟨by simpa using fun h => hw (.inl h), fun hd k => ?_⟩
    cases hk : (s.slot k).wants
    · rfl
    · exact absurd (.inr ((cellWanted_iff s).2 ⟨hd, k, hk⟩)) hw
  · rw [e] at hi
    cases hi

/-- What follows an event of the part leaves a settled state (R110, R161). -/
theorem finish_eq {s : State} (h : Settled s) : finish s = s := by
  unfold finish
  rw [settleTallies_eq h.1, portTest_eq h.2]

/-! ### The log entries of one event -/

theorem insertEntry_length (x : LogEntry) (l : List LogEntry) : (insertEntry x l).length = l.length + 1 := by
  induction l with
  | nil => rfl
  | cons y l ih => unfold insertEntry; split <;> simp [ih]

/-- Sorting keeps the number of entries. -/
theorem sortEntries_length (l : List LogEntry) : (sortEntries l).length = l.length := by
  induction l with
  | nil => rfl
  | cons x l ih => rw [sortEntries, List.foldr_cons, insertEntry_length]; simpa [sortEntries] using ih

theorem mem_insertEntry {x z : LogEntry} {l : List LogEntry} : z ∈ insertEntry x l ↔ z = x ∨ z ∈ l := by
  induction l with
  | nil => simp [insertEntry]
  | cons y l ih =>
    unfold insertEntry
    split
    · simp
    · simp only [List.mem_cons, ih]
      tauto

theorem insertEntry_sorted (x : LogEntry) {l : List LogEntry} (h : l.Pairwise (fun a b => a.event.val ≤ b.event.val)) :
    (insertEntry x l).Pairwise (fun a b => a.event.val ≤ b.event.val) := by
  induction l with
  | nil => simp [insertEntry]
  | cons y l ih =>
    unfold insertEntry
    obtain ⟨h1, h2⟩ := List.pairwise_cons.1 h
    split
    · next hxy =>
      refine List.pairwise_cons.2 ⟨fun z hz => ?_, h⟩
      rcases List.mem_cons.1 hz with rfl | hz
      · exact hxy
      · exact hxy.trans (h1 z hz)
    · next hxy =>
      refine List.pairwise_cons.2 ⟨fun z hz => ?_, ih h2⟩
      rcases mem_insertEntry.1 hz with rfl | hz
      · omega
      · exact h1 z hz

/-- Sorted entries stand in ascending event index (R63). -/
theorem sortEntries_sorted (l : List LogEntry) :
    (sortEntries l).Pairwise (fun a b => a.event.val ≤ b.event.val) := by
  induction l with
  | nil => exact .nil
  | cons x l ih => exact insertEntry_sorted x ih

/-- Sorting leaves entries that stand in ascending event index. -/
theorem sortEntries_of_sorted {l : List LogEntry} (h : l.Pairwise (fun a b => a.event.val ≤ b.event.val)) :
    sortEntries l = l := by
  induction l with
  | nil => rfl
  | cons x l ih =>
    obtain ⟨h1, h2⟩ := List.pairwise_cons.1 h
    show insertEntry x (sortEntries l) = x :: l
    rw [ih h2]
    cases l with
    | nil => rfl
    | cons y l => exact if_pos (h1 y (List.mem_cons_self ..))

/-- An event of the part within an event of the part adds nothing to it. -/
theorem oneEvent_oneEvent (f : State → State) (s : State) : oneEvent (oneEvent f) s = oneEvent f s := by
  have key (n : Nat) (l : List LogEntry) :
      (l.take n ++ sortEntries (l.drop n)).take n ++ sortEntries ((l.take n ++ sortEntries (l.drop n)).drop n) =
        l.take n ++ sortEntries (l.drop n) := by
    by_cases h : n ≤ l.length
    · have hl : (l.take n).length = n := by simp [h]
      rw [List.take_left' hl, List.drop_left' hl, sortEntries_of_sorted (sortEntries_sorted _)]
    · have h' : l.length ≤ n := by omega
      simp [List.take_of_length_le h', List.drop_of_length_le h', sortEntries]
  simp only [oneEvent, key]

/-! ### The expiries that a step makes -/

theorem freshClock_self (l : List Due) : freshClock l l = none := by simp [freshClock, List.find?_eq_none]

/-- A step that makes no clock event fall due is whole as it stands (R175). -/
theorem settleFresh_eq {s t : State} (h : t.due = s.due) : settleFresh s t = t := by
  unfold settleFresh
  rw [Nat.add_comm]
  unfold takeFresh
  simp only [h, freshClock_self]

/-! ### Searches of the tables -/

theorem routeOf_some {s : State} {v : SvcId} {r : RouteId} (h : s.routeOf v = some r) :
    (s.route r).state = .active ∧ (s.route r).service = some v := by
  simpa [State.route] using (Tbl.find?_some h)

theorem matchRoute_some {s : State} {lane : InLaneId} {tag : BitVec 12} {r : RouteId}
    (h : matchRoute s lane tag = some r) :
    (s.route r).state = .active ∧ (s.route r).inLane = lane ∧ (s.route r).inTag = tag := by
  simpa [State.route] using (Tbl.find?_some h)

theorem matchRoute_none {s : State} {lane : InLaneId} {tag : BitVec 12} :
    matchRoute s lane tag = none ↔
      ∀ r, ¬((s.route r).state = .active ∧ (s.route r).inLane = lane ∧ (s.route r).inTag = tag) := by
  unfold matchRoute
  rw [Tbl.find?_none]
  simp [State.route]

theorem matchChannel_some {s : State} {lane : InLaneId} {tag : BitVec 12} {h : ChannelId}
    (e : matchChannel s lane tag = some h) :
    (s.channel h).enabled = true ∧ (s.channel h).inLane = lane ∧ (s.channel h).inTag = tag := by
  simpa [State.channel] using (Tbl.find?_some e)

theorem freeSlot_some {s : State} {k : SlotId} (h : freeSlot s = some k) : (s.slot k).owner = none := by
  simpa [State.slot] using (Tbl.find?_some h)

theorem freeSlot_none {s : State} : freeSlot s = none ↔ ∀ k, (s.slot k).owner.isSome := by
  unfold freeSlot
  rw [Tbl.find?_none]
  refine forall_congr' fun k => ?_
  show (s.slots.get k).owner.isNone = false ↔ (s.slots.get k).owner.isSome = true
  cases (s.slots.get k).owner <;> simp

/-! ### The operations of the blocks -/

/-- An offered cell is appended to the FIFO of the route's out lane, or lost with both overflow counts raised (R19,
R128). -/
theorem offer_cases (r : RouteId) (c : Cell) (s : State) :
    ((s.outLane (s.route r).outLane).fifo.length < 256 ∧
      offer r c s = s.modOutLane (s.route r).outLane (fun o => { o with fifo := o.fifo ++ [⟨r, c⟩] })) ∨
    (256 ≤ (s.outLane (s.route r).outLane).fifo.length ∧
      offer r c s = (s.modRoute r (fun x => { x with overflow := sat16 x.overflow })).modOutLane (s.route r).outLane
        (fun o => { o with overflow := sat16 o.overflow })) := by
  unfold offer fifoRoom
  dsimp only
  split
  · next h => exact .inl ⟨of_decide_eq_true h, rfl⟩
  · next h => exact .inr ⟨Nat.not_lt.1 (fun k => h (decide_eq_true k)), rfl⟩

/-- Closing an event reaches the event's record and the log, and only while the event is live (R57, R62). -/
theorem closeEvent_cases (e : EventId) (o : Outcome) (f : OutFlags) (s : State) :
    ((s.event e).live = false ∧ closeEvent e o f s = s) ∨
    ((s.event e).live = true ∧ ∃ x, x.state = o.state ∧ x.outcome = some o ∧ x.slot = none ∧
      x.flags = (s.event e).flags.union f ∧
      closeEvent e o f s = { s.modEvent e (fun _ => x) with log := s.log ++ [entryOf e x o s.now] }) := by
  unfold closeEvent
  split
  · next h => exact .inr ⟨h, _, rfl, rfl, rfl, rfl, rfl⟩
  · next h => exact .inl ⟨Bool.eq_false_iff.2 h, rfl⟩

/-- The port's side of a slot that goes (R120): nothing for another slot's fetch; the abandon mark, or the drop of the
fetch, for the slot's own. -/
theorem slotGone_cases (k : SlotId) (s : State) :
    slotGone k s = s ∨
    (∃ f, s.port.fetch = some f ∧ f.slot = k ∧ s.port.abandon = false ∧ ∃ n,
      (slotGone k s = { s with port := { s.port with abandon := true }, draws := n } ∨
        slotGone k s = { s with port := s.port.dropped, draws := n })) := by
  unfold slotGone
  split
  · exact .inl rfl
  · next f hf =>
    by_cases h : f.slot ≠ k ∨ s.port.abandon = true
    · rw [if_pos h]; exact .inl rfl
    · rw [if_neg h]
      obtain ⟨h1, h2⟩ := not_or.1 h
      refine .inr ⟨f, hf, not_not.1 h1, Bool.eq_false_iff.2 h2, ?_⟩
      split
      · exact ⟨s.draws, .inr rfl⟩
      · split
        · refine ⟨s.draws + 1, ?_⟩
          cases Config.burstIssued s.draws
          · exact .inr rfl
          · exact .inl rfl
        · exact ⟨s.draws, .inl rfl⟩

/-- A cell that has had no answer yet, and whose fetch does not wait to be resumed, is abandoned with its slot (R120). -/
theorem slotGone_first {k : SlotId} {s : State} {f : Fetch} (h : s.port.fetch = some f) (hk : f.slot = k)
    (hr : s.port.resume = false) (ha : f.answered = false) :
    slotGone k s = s.modPort (fun p => { p with abandon := true }) := by
  unfold slotGone
  rw [h]
  simp only [hk, ne_eq, not_true_eq_false, false_or, hr, ha]
  split
  · next hb =>
    have e : ({ s.port with abandon := true } : Port) = s.port := by rw [← hb]
    exact ((congrArg (fun p => ({ s with port := p } : State)) e).trans rfl).symm
  · simp

/-- A tenure ends in RELEASING with the fairness gap to wait, or without a gap in IDLE with the port's test (R112,
R118). -/
theorem endTenure_cases (s : State) :
    (s.port.gap ≠ 0 ∧ endTenure s = s.modPort (fun p => { p with phase := .releasing, gapCount := p.gap })) ∨
    (s.port.gap = 0 ∧
      endTenure s = gapOver (s.modPort (fun p => { p with phase := .releasing, gapCount := p.gap }))) := by
  unfold endTenure
  by_cases h : s.port.gap = 0
  · exact .inr ⟨h, if_pos h⟩
  · exact .inl ⟨h, if_neg h⟩

/-- RESTART drops the port's fetch; an OWNER port that may stand between two transfers of its cell either waits for the
answer of one under way or ends its tenure (R120, R122). -/
theorem restartStorePort_cases (s : State) :
    (¬(s.port.phase = .owner ∧ s.port.abandon = false ∧ ∃ f, s.port.fetch = some f ∧ f.answered = true) ∧
      restartStorePort s = s.modPort Port.dropped) ∨
    (s.port.phase = .owner ∧ s.port.abandon = false ∧ (∃ f, s.port.fetch = some f ∧ f.answered = true) ∧
      let u : State := { s.modPort Port.dropped with draws := s.draws + 1 }
      (restartStorePort s = u ∨ restartStorePort s = { u with port := (endTenure u).port })) := by
  unfold restartStorePort
  split
  · next h => exact .inl ⟨fun ⟨_, _, f, hf, _⟩ => (nomatch h.symm.trans hf), rfl⟩
  · next f h =>
    by_cases c : s.port.phase = .owner ∧ s.port.abandon = false ∧ f.answered = true
    · refine .inr ⟨c.1, c.2.1, ⟨f, h, c.2.2⟩, ?_⟩
      rw [if_pos c]
      dsimp only
      cases Config.burstIssued s.draws
      · exact .inr rfl
      · exact .inl rfl
    · refine .inl ⟨fun ⟨h1, h2, g, hg, ha⟩ => c ⟨h1, h2, ?_⟩, if_neg c⟩
      rw [h] at hg
      cases hg
      exact ha

/-- A claim sets a slot up for its owner, and names it in an ad event's record (R92). -/
theorem claimSlot_cases (k : SlotId) (o : Owner) (s : State) :
    (∃ e, o = .event e ∧ claimSlot k o s =
      (s.modSlot k (fun _ => claimedSlot s o)).modEvent e (fun x => { x with slot := some k })) ∨
    ((∀ e, o ≠ .event e) ∧ claimSlot k o s = s.modSlot k (fun _ => claimedSlot s o)) := by
  cases o with
  | event e => exact .inl ⟨e, rfl, rfl⟩
  | alert a => exact .inr ⟨fun _ => nofun, rfl⟩
  | loss v => exact .inr ⟨fun _ => nofun, rfl⟩

/-- A grant moves a REQUESTING port that may take the bus, and nothing else (R111). -/
theorem grantStep_cases (busBusy : Bool) (s : State) :
    (s.port.phase = .requesting ∧ (s.port.fast = true ∨ busBusy = false) ∧ grantStep busBusy s = takeBus s) ∨
    (¬(s.port.phase = .requesting ∧ (s.port.fast = true ∨ busBusy = false)) ∧ grantStep busBusy s = s) := by
  unfold grantStep
  split
  · next h => exact .inl ⟨h.1, h.2, rfl⟩
  · next h => exact .inr ⟨h, rfl⟩

/-- A cell position is filled, with what follows it, if one is due (R126). -/
theorem positionStep_cases (n : OutLaneId) (s : State) :
    (positionDue s n = true ∧ positionStep n s = finish (fillPosition n s)) ∨
    (positionDue s n = false ∧ positionStep n s = s) := by
  unfold positionStep
  cases positionDue s n <;> simp

end Sys2Proof.Machine
end

