-- ==== Sys2Proof/WellFormed.lean ====
section
/-!
DEFINITION. Which commands can come about on the part's interfaces: a record field fits the bytes that section 10.7
gives it, a field area fits its length byte, a record leaves room for its own result, a store answer carries a burst.
The meanings are total: they read an ill-formed command too, but no control cell and no bus can spell one.
-/
namespace Sys2Proof

def fits (bytes n : Nat) : Bool := decide (n < 256 ^ bytes)

/-- The space left for returned data is at most that of a one-record cell (R177). -/
def Ctx.wf (x : Ctx) : Bool := decide (x.room ≤ 231)

/-- A field area is at most 231 bytes long (section 10.7). -/
def areaWf (fields : List Byte) : Bool := decide (fields.length ≤ 231)

def optFits (bytes : Nat) : Option Nat → Bool
  | none => true
  | some n => fits bytes n

def RouteImg.wf (r : RouteImg) : Bool :=
  fits 1 r.inLane && fits 2 r.inTag && fits 1 r.outLane && fits 2 r.outTag && fits 2 r.allotment &&
    optFits 1 r.service && fits 1 r.guard

def ServiceImg.wf (r : ServiceImg) : Bool :=
  fits 3 r.unitInt && fits 2 r.unitFrac && fits 4 r.preroll && fits 4 r.exitWindow && fits 4 r.returnWindow &&
    fits 3 r.seamTolerance && fits 3 r.leadLimit && fits 3 r.lateLimit && optFits 2 r.lossClip && fits 1 r.guard

def EventImg.wf (r : EventImg) : Bool :=
  fits 1 r.state && fits 1 r.service && fits 1 r.trigger && optFits 5 r.duration && fits 1 r.clipCount &&
    r.clips.all (fits 2) && decide (r.clips.length = min r.clipCount 8) && fits 1 r.guard

def ClipImg.wf (r : ClipImg) : Bool :=
  fits 1 r.state && fits 1 r.window && fits 4 r.offset && fits 3 r.length &&
    decide (-32768 ≤ r.trim ∧ r.trim < 32768) && fits 1 r.guard

def WindowImg.wf (r : WindowImg) : Bool := fits 5 r.base && fits 4 r.length && fits 1 r.guard

def AlertImg.wf (r : AlertImg) : Bool :=
  optFits 1 r.priority && fits 2 r.clip && fits 1 r.leaseCode && fits 1 r.guard

def Form.wf (f : Form) : Bool := fits 1 f.form && fits 1 f.operand

def CounterImg.wf (r : CounterImg) : Bool :=
  r.source.wf && r.gate.wf && fits 2 r.reload && fits 1 r.mode && r.target.wf && fits 1 r.guard

def CueLineImg.wf (r : CueLineImg) : Bool :=
  fits 1 r.direction && fits 1 r.edge && fits 1 r.debounce && r.tally.wf && fits 1 r.guard

def ChannelImg.wf (r : ChannelImg) : Bool :=
  fits 1 r.inLane && fits 2 r.inTag && fits 1 r.respLane && fits 2 r.respTag && fits 1 r.bound

def StoreImg.wf (r : StoreImg) : Bool := fits 1 r.tenureLimit && fits 1 r.gap && fits 1 r.dutyLimit

/-- The commands that the part's interfaces can spell. -/
def Instr.wf : Instr → Bool
  | .powerOnReset _ _ => true
  | .stationTick _ => true
  | .debounceEdge _ => true
  | .cellArrival _ _ => true
  | .laneLoss _ => true
  | .backstop _ => true
  | .clockModelHold _ => true
  | .windowStart _ => true
  | .outputPosition _ => true
  | .leaseLapse _ => true
  | .counterExpiry _ => true
  | .busGrant _ => true
  | .burstAnswer _ _ _ data => decide (data.length = 32)
  | .backOff => true
  | .gapEnd => true
  | .controlCellExecute => true
  | .read x t i f => x.wf && fits 1 t && fits 2 i && areaWf f
  | .point x t i => x.wf && fits 1 t && fits 2 i
  | .put x f => x.wf && areaWf f
  | .get x f => x.wf && areaWf f
  | .write x t i f => x.wf && fits 1 t && fits 2 i && areaWf f
  | .routeWriteActive x i r => x.wf && fits 2 i && r.wf
  | .routeWriteFree x i g => x.wf && fits 2 i && fits 1 g
  | .serviceWrite x i st r => x.wf && fits 2 i && fits 1 st && r.wf
  | .serviceEnable x i r => x.wf && fits 2 i && r.wf
  | .serviceDisable x i r => x.wf && fits 2 i && r.wf
  | .eventWrite x i r => x.wf && fits 2 i && r.wf
  | .clipWrite x i r => x.wf && fits 2 i && r.wf
  | .windowWrite x i r => x.wf && fits 2 i && r.wf
  | .alertWrite x i r => x.wf && fits 2 i && r.wf
  | .counterWrite x i r => x.wf && fits 2 i && r.wf
  | .cuelineWrite x i r => x.wf && fits 2 i && r.wf
  | .channelWrite x i r => x.wf && fits 2 i && r.wf
  | .inlaneWrite x i t => x.wf && fits 2 i && fits 2 t
  | .outlaneWrite x i k => x.wf && fits 2 i && fits 2 k
  | .storeWrite x i r => x.wf && fits 2 i && r.wf
  | .spliceNow x i => x.wf && fits 2 i
  | .cancel x i => x.wf && fits 2 i
  | .alertOn x i => x.wf && fits 2 i
  | .alertRenew x i => x.wf && fits 2 i
  | .alertOff x i => x.wf && fits 2 i
  | .counterStart x i => x.wf && fits 2 i
  | .counterStop x i => x.wf && fits 2 i
  | .takeLog x i => x.wf && fits 2 i
  | .clear x t i f => x.wf && fits 1 t && fits 2 i && areaWf f
  | .restart x i => x.wf && fits 2 i

end Sys2Proof
end

