-- ==== Sys2Proof/Tests/Slice0.lean ====
section
/-!
SUPPORT. The model's own tests: ill-formed commands refused by WellFormed, the manual's worked examples, one step of each
command on a small state, and for every statement with hypotheses a state and operands that meet them (`witness_…`), at
the boundary values of its clauses.
-/
namespace Sys2Proof.Tests
open Sys2Proof Sys2Proof.Machine
set_option Elab.async false

/-! ### Helpers -/

/-- The state that a command leaves. -/
def ran (c : Instr) (s : State) : State :=
  match exec c s with
  | .next t => t
  | _ => s

/-- A frame of 256 bytes with the given header and a payload of zeros. -/
def frame (tag kindFlags marks : Nat) (rs ps : Stamp) (len : Nat) : List Byte :=
  beBytes 2 (tag * 16) ++ [BitVec.ofNat 8 kindFlags, BitVec.ofNat 8 marks] ++ beBytes 5 rs.toNat ++
    beBytes 5 ps.toNat ++ [BitVec.ofNat 8 len, 0] ++ List.replicate 240 0

/-- A control frame for a listening tag whose payload begins with the given bytes. -/
def controlFrame (tag : Nat) (payload : List Byte) : List Byte :=
  (frame tag 64 0 0 0 payload.length).take 16 ++ padTo 240 payload

/-- A cell without stamps. -/
def plain (kind : CellKind) (tag : BitVec 12) : Cell := { Cell.fillerCell with kind := kind, tag := tag }

def cell1 : Cell := plain .media 100
def top : Ctx := ⟨0, 0, 231⟩
def low : Ctx := ⟨0, 1, 231⟩

/-- Lane NL0 UP since 0 ms, and route 1 ACTIVE on tag 100, leaving on OL0 with tag 200. -/
def lit : State :=
  (State.reset.modInLane 0 (fun x => { x with state := .up, lastArrival := some 0 })).modRoute 1 (fun x =>
    { x with state := .active, inLane := 0, inTag := 100, outLane := 0, outTag := 200 })

/-- The same with service 3 in NETWORK on the route, with an allotment of 20. -/
def tracked : State :=
  (lit.modRoute 1 (fun x => { x with service := some 3, allotment := 20 })).modSvc 3 (fun x =>
    { x with state := .network, lastPs := some 1000000 })

/-- Reset with no cell position owed, so that a tick has nothing to settle. -/
def quiet : State := { State.reset with outLanes := State.reset.outLanes.map (fun o => { o with windowK := 0 }) }

/-- Reset with clip 5 LOADED in window 2 of 2^20 bytes at address 0, which is enabled. -/
def loaded : State :=
  ((State.reset.setWindow 2 { base := 0, length := 1048576, enabled := true, guard := 3 }).setClip 5
    { state := .loaded, window := 2, offset := 0, length := 40, c0 := 0, cEnd := 1000000, trim := 0, guard := 3 })

theorem routesUnique_of_one {s : State} (r : RouteId) (h : ∀ i, i ≠ r → (s.route i).state = .free) :
    RoutesUnique s := by
  intro i j hij hi hj
  by_cases a : i = r
  · by_cases b : j = r
    · exact absurd (a.trans b.symm) hij
    · rw [h j b] at hj; cases hj
  · rw [h i a] at hi; cases hi

theorem lit_unique : RoutesUnique lit := routesUnique_of_one 1 (by decide +kernel)
theorem tracked_unique : RoutesUnique tracked := routesUnique_of_one 1 (by decide +kernel)
theorem settled_of {s : State} (h : ∀ n, (s.line n).direction = .input) (k : ∀ i, (s.slot i).wants = false)
    (r : s.port.resume = false) : Settled s :=
  ⟨fun n hn => absurd ((h n).symm.trans hn) (by decide), fun _ => ⟨r, fun _ => k⟩⟩

/-! ### WellFormed refuses an ill-formed term of each check -/

def route0 : RouteImg :=
  { inLane := 0, inTag := 1, outLane := 0, outTag := 2, allotment := 0, service := none, guard := 0 }
def service0 : ServiceImg :=
  { unitInt := 400000, unitFrac := 0, preroll := 0, exitWindow := 0, returnWindow := 0, seamTolerance := 0,
    leadLimit := 0, lateLimit := 0, lossClip := none, guard := 0 }
def event0 : EventImg :=
  { state := 1, service := 3, trigger := 1, s := none, duration := some 10000, clipCount := 1, clips := [5],
    force := false, rehearse := false, guard := 0 }
def clip0 : ClipImg :=
  { state := 1, window := 2, offset := 0, length := 1, c0 := 0, cEnd := 0, trim := 0, guard := 0 }
def window0 : WindowImg := { base := 0, length := 1048576, enabled := true, guard := 0 }
def alert0 : AlertImg := { priority := some 0, group := 1, clip := 5, leaseCode := 0, masked := false, guard := 0 }
def counter0 : CounterImg :=
  { source := ⟨0, 0⟩, gate := ⟨0, 0⟩, reload := 1, mode := 0, target := ⟨0, 0⟩, guard := 0 }
def cueline0 : CueLineImg := { direction := 0, edge := 0, debounce := 0, tally := ⟨0, 0⟩, guard := 0 }
def channel0 : ChannelImg := { enabled := false, inLane := 0, inTag := 0, respLane := 0, respTag := 0, bound := 0 }
def store0 : StoreImg := { fast := false, tenureLimit := 4, gap := 2, dutyLimit := 32 }

theorem test_wf_accepts :
    [Instr.routeWriteActive top 0 route0, .serviceWrite top 0 0 service0, .eventWrite top 0 event0,
      .clipWrite top 0 clip0, .windowWrite top 0 window0, .alertWrite top 0 alert0, .counterWrite top 0 counter0,
      .cuelineWrite top 0 cueline0, .channelWrite top 0 channel0, .storeWrite top 0 store0].all Instr.wf = true := by
  decide
theorem test_wf_route :
    [{ route0 with inLane := 256 }, { route0 with inTag := 65536 }, { route0 with outLane := 256 },
      { route0 with outTag := 65536 }, { route0 with allotment := 65536 }, { route0 with service := some 256 },
      { route0 with guard := 256 }].any RouteImg.wf = false := by decide
theorem test_wf_service :
    [{ service0 with unitInt := 2 ^ 24 }, { service0 with unitFrac := 65536 }, { service0 with preroll := 2 ^ 32 },
      { service0 with exitWindow := 2 ^ 32 }, { service0 with returnWindow := 2 ^ 32 },
      { service0 with seamTolerance := 2 ^ 24 }, { service0 with leadLimit := 2 ^ 24 },
      { service0 with lateLimit := 2 ^ 24 }, { service0 with lossClip := some 65536 },
      { service0 with guard := 256 }].any ServiceImg.wf = false := by decide
theorem test_wf_event :
    [{ event0 with state := 256 }, { event0 with service := 256 }, { event0 with trigger := 256 },
      { event0 with duration := some (2 ^ 40) }, { event0 with clipCount := 256, clips := List.replicate 8 0 },
      { event0 with clips := [65536] }, { event0 with clips := [] }, { event0 with guard := 256 }].any EventImg.wf =
      false := by decide
theorem test_wf_clip :
    [{ clip0 with state := 256 }, { clip0 with window := 256 }, { clip0 with offset := 2 ^ 32 },
      { clip0 with length := 2 ^ 24 }, { clip0 with trim := 32768 }, { clip0 with trim := -32769 },
      { clip0 with guard := 256 }].any ClipImg.wf = false := by decide
theorem test_wf_window :
    [{ window0 with base := 2 ^ 40 }, { window0 with length := 2 ^ 32 }, { window0 with guard := 256 }].any
      WindowImg.wf = false := by decide
theorem test_wf_alert :
    [{ alert0 with priority := some 256 }, { alert0 with clip := 65536 }, { alert0 with leaseCode := 256 },
      { alert0 with guard := 256 }].any AlertImg.wf = false := by decide
theorem test_wf_counter :
    [{ counter0 with source := ⟨256, 0⟩ }, { counter0 with gate := ⟨0, 256⟩ }, { counter0 with reload := 65536 },
      { counter0 with mode := 256 }, { counter0 with target := ⟨256, 0⟩ }, { counter0 with guard := 256 }].any
      CounterImg.wf = false := by decide
theorem test_wf_cueline :
    [{ cueline0 with direction := 256 }, { cueline0 with edge := 256 }, { cueline0 with debounce := 256 },
      { cueline0 with tally := ⟨0, 256⟩ }, { cueline0 with guard := 256 }].any CueLineImg.wf = false := by decide
theorem test_wf_channel :
    [{ channel0 with inLane := 256 }, { channel0 with inTag := 65536 }, { channel0 with respLane := 256 },
      { channel0 with respTag := 65536 }, { channel0 with bound := 256 }].any ChannelImg.wf = false := by decide
theorem test_wf_store :
    [{ store0 with tenureLimit := 256 }, { store0 with gap := 256 }, { store0 with dutyLimit := 256 }].any
      StoreImg.wf = false := by decide
theorem test_wf_context_index_area_answer :
    [Instr.point ⟨0, 0, 232⟩ 0 0, .point top 256 0, .point top 0 65536, .put top (List.replicate 232 0),
      .inlaneWrite top 0 65536, .outlaneWrite top 0 65536, .routeWriteFree top 0 256, .serviceWrite top 0 256 service0,
      .burstAnswer true false false []].any Instr.wf = false := by decide +kernel

/-! ### The manual's worked examples -/

/-- The table of section 4.3. -/
theorem test_trim_table :
    [(150000000, 1000, 150008941), (19800000, 1000, 19801180), (8388608, 1, 8388609), (-8388608, 1, -8388609),
      (-500000, 16383, -500488), (300000000, -2000, 299964237)].all
      (fun (x : Int × Int × Int) => decide (corrected x.1 x.2.1 = x.2.2)) = true := by decide
/-- Clips A and B of section 4.8. -/
def clipA : Clip := { Clip.reset with state := .loaded, c0 := 900000, cEnd := 300900000 }
def clipB : Clip := { Clip.reset with state := .loaded, c0 := 1200000, cEnd := 151200000, trim := 1000 }
theorem test_feed_total : feedTotal 333666 43691 [clipA, clipB] = 450676274 := by decide
theorem test_return_target : (68719000000 : Stamp) + ticks 450676274 = 450199538 := by decide
theorem test_converted_stamps :
    [convert clipA 0 (some 900000), convert clipA 0 (some 400000), convert clipA 0 (some 68700376736),
      convert clipB 300333666 (some 1200000), convert clipB 300333666 (some 21000000)] =
      [.pos 0, .pos 68718976736, .stray, .pos 300333666, .pos 320134846] := by decide
theorem test_output_stamp : outStamp 68719000000 300333666 = 299856930 := by decide
/-- Section 4.9: one service with a last network PS, one without. -/
theorem test_join_base :
    joinBase { Service.reset with cfg := { SvcConfig.reset with unitInt := 333666 }, lastPs := some 1000000000 }
      300297903 = 700035763 ∧ joinBase Service.reset 300297903 = 0 := by decide
/-- Section 4.10. -/
theorem test_projection :
    let x : Service := { Service.reset with clock := some ⟨68719400000, 1000000⟩ }
    projection x 1000025 = some 173264 ∧ projection x 1600000 = some 5999923264 ∧
      projection { x with held := true } 3000000 = some 10485683264 := by decide
/-- Clip 40 of section 5.9, whose cells wrap in their window. -/
theorem test_store_addresses :
    [0, 3, 4, 9].map (storeAddress { base := 50331648, length := 16777216, enabled := true, guard := 3 }
      { Clip.reset with offset := 16776192, length := 10 }) =
      [67107840, 67108608, 50331648, 50332928] := by decide
/-- The deadlines of sections 2.10 and 8.8. -/
theorem test_backstops : backstopAt 52310 5000000 = 53810 ∧ backstopAt 1240000 5000000 = 1241500 ∧
    backstopAt 1203400 (450676274 + 5000000) = 1249968 := by decide
/-- The lagging reader of section 5.9: service 7 at 8, services 41 and 20 at 30 and 38, 32 cells from sequence 8 on. -/
def lagging : State :=
  { State.reset with slots := State.reset.slots.put 9 { Slot.reset with
      owner := some (.alert 4), clips := .looped 0, written := 40, tail := 8
      ring := List.replicate 32 ⟨cell1, 0, .absent, .absent⟩
      readers := [⟨20, 38, .none⟩, ⟨41, 30, .none⟩, ⟨7, 8, .none⟩] } }
theorem test_slip :
    let t := settleRing 9 lagging
    (t.slot 9).tail = 30 ∧ (t.slot 9).ring.length = 10 ∧ (t.slot 9).readerOf 7 = some ⟨7, 40, .slip⟩ ∧
      (t.svc 7).slipCount = 1 ∧ (t.svc 7).slipped = true ∧ (t.svc 7).insertMark = true ∧
      (t.svc 41).slipCount = 0 := by decide +kernel
/-- The strapped channel of section 10.6 and its worked control cell. -/
def strapped : State :=
  (State.powerOn 2 3).modInLane 2 (fun x => { x with state := .up, lastArrival := some 0 })
def channelRecord (index respTag bound : Nat) : List Byte :=
  [1, 9] ++ beBytes 2 index ++ [20] ++
    padTo 20 ([0, 1, 2] ++ beBytes 2 4084 ++ [1] ++ beBytes 2 respTag ++ [BitVec.ofNat 8 bound])
def workedCell : List Byte :=
  controlFrame 4083 (beBytes 2 7 ++ [0, 3] ++ channelRecord 1 4091 1 ++ [0, 1, 0, 0, 1, 4] ++ channelRecord 2 4092 2)
theorem test_straps : (strapped.channel 0).inTag = 4083 ∧ (strapped.channel 0).respTag = 4091 ∧
    ((State.powerOn 0 7).channel 0).respTag = 4094 := by decide +kernel
theorem test_worked_cell_is_taken_in :
    ((ran (.cellArrival 2 workedCell) strapped).intake.map (fun x => (x.ch, x.cls))) = [(0, 0)] := by decide +kernel
theorem test_worked_response :
    let t := ran .controlCellExecute (ran (.cellArrival 2 workedCell) strapped)
    (t.channel 0).queue.map (fun c => (c.tag, c.kind, c.length)) = [(4091, .response, 175)] ∧
      (t.channel 0).queue.map (fun c => c.payload.take 12) = [[0, 7, 0, 0, 3, 0, 0, 0, 0, 0, 2, 160]] ∧
      (t.channel 0).queue.map (fun c => (c.payload.drop 172).take 3) = [[6, 0, 0]] ∧
      (t.channel 1).enabled = true ∧ (t.channel 2).enabled = false := by decide +kernel

/-! ### Witnesses: cells, lanes, routes -/

theorem settled_lit : Settled lit := settled_of (by decide +kernel) (by decide +kernel) (by decide +kernel)
theorem settled_reset : Settled State.reset := settled_of (by decide +kernel) (by decide +kernel) (by decide +kernel)

def releasing (n : Nat) : State := State.reset.modPort (fun p => { p with phase := .releasing, gapCount := n })
theorem witness_IdleStepCountsTheGap :
    State.reset.pending = [] ∧ State.reset.port.phase ≠ .releasing ∧
      (releasing 2).pending = [] ∧ (releasing 2).port.phase = .releasing ∧ 2 ≤ (releasing 2).port.gapCount ∧
      (releasing 1).pending = [] ∧ (releasing 1).port.phase = .releasing ∧ (releasing 1).port.gapCount = 1 := by
  decide +kernel
/-- An invariant's witness: the state after reset has it, with a command in the queue, and a step answers. -/
def ready : State := { lit with pending := [.inlaneWrite top 0 5] }
theorem witness_StreamsStayUnique : StreamsUnique ready ∧ ∃ t, step ready = .next t := by
  refine ⟨⟨lit_unique, ?_, ?_⟩, ⟨_, rfl⟩⟩
  · intro h i; revert h i; decide +kernel
  · intro h g; revert h g; decide +kernel
theorem witness_LoadingLimitStays : LoadingLimit ready ∧ ∃ t, step ready = .next t := by
  refine ⟨fun n => ?_, ⟨_, rfl⟩⟩
  revert n; decide +kernel
theorem witness_BuffersStayBounded :
    FifosBounded ready ∧ RingsBounded ready ∧ QueuesBounded ready ∧ ∃ t, step ready = .next t := by
  refine ⟨fun n => ?_, fun k => ?_, fun h => ?_, ⟨_, rfl⟩⟩
  · revert n; decide +kernel
  · revert k; decide +kernel
  · revert h; decide +kernel
theorem witness_ValuesStayInRange :
    SettingsInRange ready ∧ ShedLevelsInRange ready ∧ CountsSaturate ready ∧ CountersInRange ready ∧
      IdleChannelsBare ready ∧ ∃ t, step ready = .next t := by
  refine ⟨?_, ?_, ?_, ?_, ?_, ⟨_, rfl⟩⟩
  · unfold SettingsInRange; decide +kernel
  · unfold ShedLevelsInRange; decide +kernel
  · unfold CountsSaturate; decide +kernel
  · unfold CountersInRange; decide +kernel
  · unfold IdleChannelsBare; decide +kernel
theorem witness_TalliesAndPortStaySettled : Settled ready ∧ ∃ t, step ready = .next t :=
  ⟨settled_of (by decide +kernel) (by decide +kernel) (by decide +kernel), ⟨_, rfl⟩⟩
theorem witness_CellBytesReadBack :
    Cell.fillerCell.payload.length = 240 ∧ (Cell.fillerCell.kind = .filler ↔ Cell.fillerCell.tag = 4095) ∧
      ({ cell1 with length := 240 } : Cell).payload.length = 240 ∧ (cell1.kind = .filler ↔ cell1.tag = 4095) := by
  decide +kernel
/-- Kinds 3 and 4, lengths 240 and 241, filler with and without tag 4095. -/
theorem witness_HeadersAreJudged :
    ([frame 0 0x60 0 0 0 240, frame 0 0x80 0 0 0 0, frame 0 0 0 0 0 241, frame 4095 0x20 0 0 0 0,
      frame 4094 0x20 0 0 0 0, frame 4095 0 0 0 0 0].map (fun bs => (bs.length, (judge bs).isSome))) =
      [(256, true), (256, false), (256, false), (256, true), (256, false), (256, false)] := by decide +kernel
theorem witness_UnusableFramesOnlyCount :
    (List.replicate 255 (0 : Byte)).length ≠ 256 ∧ (frame 100 0x80 0 0 0 0).length = 256 ∧
      judge (frame 100 0x80 0 0 0 0) = none := by decide +kernel
def media : List Byte := frame 100 0 0 0 0 0
/-- `lit` with `n` cells in the FIFO. -/
def queuedUp (n : Nat) : State := lit.modOutLane 0 (fun o => { o with fifo := List.replicate n ⟨1, cell1⟩ })
theorem judge_media : judge media = some cell1 := by decide +kernel
theorem witness_ForwardedCellJoinsFifo (n : Nat) (hn : n = 255 ∨ n = 256) :
    media.length = 256 ∧ judge media = some cell1 ∧ cell1.kind = .media ∧ ((queuedUp n).inLane 0).state = .up ∧
      ((queuedUp n).route 1).state = .active ∧ ((queuedUp n).route 1).inLane = 0 ∧
      ((queuedUp n).route 1).inTag = cell1.tag ∧ RoutesUnique (queuedUp n) ∧
      (∀ v, ((queuedUp n).route 1).service = some v → ((queuedUp n).svc v).state = .off) ∧
      ((queuedUp n).outLane ((queuedUp n).route 1).outLane).fifo.length = n := by
  refine ⟨by decide +kernel, judge_media, rfl, ?_, ?_, ?_, ?_, routesUnique_of_one 1 ?_, ?_, ?_⟩ <;>
    rcases hn with rfl | rfl <;> decide +kernel
def fillerFrame : List Byte := frame 4095 0x20 0 0 0 0
def media7 : List Byte := frame 7 0 0 0 0 0
theorem witness_UnmatchedCellsAreCounted :
    media7.length = 256 ∧ judge media7 = some (plain .media 7) ∧ (lit.inLane 0).state = .up ∧
      ((plain .media 7).kind = .media → ∀ r, ¬((lit.route r).state = .active ∧ (lit.route r).inLane = 0 ∧
        (lit.route r).inTag = (plain .media 7).tag)) ∧
      ((plain .media 7).kind = .control → ∀ h, ¬((lit.channel h).enabled = true ∧ (lit.channel h).inLane = 0 ∧
        (lit.channel h).inTag = (plain .media 7).tag)) ∧
      judge fillerFrame = some (plain .filler 4095) := by decide +kernel
def pointFrame : List Byte := controlFrame 4080 [0, 9, 2, 1, 2, 12, 0, 0, 0]
def pointCell : Cell := { plain .control 4080 with length := 9, payload := padTo 240 [0, 9, 2, 1, 2, 12, 0, 0, 0] }
/-- `lit` with `n` response cells queued on channel 0. -/
def answered (n : Nat) : State := lit.modChannel 0 (fun c => { c with queue := List.replicate n (plain .response 4088) })
theorem witness_ControlCellIsTakenIn (n : Nat) (hn : n = 15 ∨ n = 16) :
    pointFrame.length = 256 ∧ judge pointFrame = some pointCell ∧ pointCell.kind = .control ∧
      parseControl pointCell = some ⟨9, 2, [⟨2, 12, 0, []⟩]⟩ ∧ ((answered n).inLane 0).state = .up ∧
      ((answered n).channel 0).enabled = true ∧ ((answered n).channel 0).inLane = 0 ∧
      ((answered n).channel 0).inTag = pointCell.tag ∧ ChannelsUnique (answered n) ∧
      ((answered n).channel 0).queue.length + reserved (answered n) 0 = n := by
  unfold ChannelsUnique
  rcases hn with rfl | rfl <;> decide +kernel
/-- `tracked` at 100 ms, the lane's deadline, with the loss due. -/
def losing : State := { tracked with now := 100, due := [.laneLoss 0] }
theorem witness_LaneLossTakesTheLaneDown :
    Due.laneLoss 0 ∈ losing.due ∧ (losing.inLane 0).state = .up ∧ (losing.inLane 0).lastArrival = some 0 ∧
      (losing.now - (0 + BitVec.ofNat 32 (losing.inLane 0).timeout)).toNat < 2 ^ 31 ∧ losing.servicesOn 0 = [3] ∧
      (losing.svc 3).state = .network ∧ (losing.svc 3).lossWaiting = false ∧ (losing.svc 3).cfg.lossClip = none := by
  decide +kernel
/-- The loss with loss clip 5 LOADED, every slot owned as given, and a wait list. -/
def losingFill (o : Option Owner) (l : List Claimant) : State :=
  { (losing.modSvc 3 (fun x => { x with cfg := { x.cfg with lossClip := some 5 } })).setClip 5
      { Clip.reset with state := .loaded } with
    slots := Vector.replicate 16 { Slot.reset with owner := o }, waitList := l }
theorem witness_LaneLossTakesTheLaneDown_fill (o : Option Owner) (ho : o = none ∨ o = some (.alert 1)) :
    let s := losingFill o [.loss 7, .event 2]
    Due.laneLoss 0 ∈ s.due ∧ (s.inLane 0).state = .up ∧ (s.inLane 0).lastArrival = some 0 ∧
      s.servicesOn 0 = [3] ∧ (s.svc 3).state = .network ∧ (s.svc 3).lossWaiting = false ∧
      (s.svc 3).cfg.lossClip = some 5 ∧ (s.clip 5).state = .loaded ∧ (∀ k, (s.slot k).owner = o) ∧
      s.waitList = [.loss 7] ++ [.event 2] ∧ ∀ w, [Claimant.event 2].head? ≠ some (.loss w) := by
  rcases ho with rfl | rfl <;> decide +kernel
/-- Service 3 with its lane DOWN: in loss fill, or waiting for a slot. -/
def darkened (x : Service → Service) : State :=
  { (tracked.modInLane 0 (fun y => { y with state := .down })).modSvc 3 x with waitList := [.loss 3, .event 4] }
theorem witness_LaneLossTakesTheLaneDown_return :
    let s := darkened (fun x => { x with state := .inserting, kind := some .loss })
    let u := darkened (fun x => { x with lossWaiting := true })
    fillerFrame.length = 256 ∧ judge fillerFrame = some (plain .filler 4095) ∧ (s.inLane 0).state = .down ∧
      s.servicesOn 0 = [3] ∧ (s.svc 3).state = .inserting ∧ (s.svc 3).kind = some .loss ∧
      (u.inLane 0).state = .down ∧ u.servicesOn 0 = [3] ∧ (u.svc 3).state = .network ∧
      (u.svc 3).lossWaiting = true := by decide +kernel
/-- A route whose allotment is the greatest that leaves one cell of 256 for responses. -/
def route255 : RouteImg := { route0 with allotment := 255, service := some 3 }
theorem witness_RouteWriteBinds :
    (State.reset.route 2).state = .free ∧ (State.reset.svc 3).state = .off ∧ route255.inTag ≤ 4094 ∧
      route255.allotment ≤ 1024 ∧
      (∀ j, j ≠ (2 : RouteId) → (State.reset.route j).state ≠ .active) ∧
      (∀ h, (State.reset.channel h).enabled = true →
        ¬((State.reset.channel h).respLane = 0 ∧ (State.reset.channel h).respTag = BitVec.ofNat 12 2)) ∧
      route255.allotment + allottedBut State.reset 0 (some 2) + 1 ≤ (State.reset.outLane 0).capacity := by
  decide +kernel
theorem witness_RouteFreeUnbinds :
    (lit.route 1).state = .active ∧ top.cls ≤ (lit.route 1).guard ∧ (lit.route 1).service = none := by decide +kernel

/-! ### Witnesses: services -/

/-- An OFF and a NETWORK service written, at the ends of the refused fields' ranges. -/
theorem witness_ServiceWriteStores :
    let w : ServiceImg := { service0 with unitInt := 1048576, unitFrac := 65535, preroll := 100000000 }
    top.cls ≤ (tracked.svc 3).cfg.guard ∧ (tracked.svc 3).state = .network ∧ (tracked.svc 4).state = .off ∧
      1 ≤ w.unitInt ∧ w.unitInt ≤ 1048576 ∧ w.unitFrac ≤ 65535 ∧ w.preroll ≤ 100000000 ∧ w.lossClip = none ∧
      tracked.list 3 = [] ∧ ∀ e, (tracked.event e).service = 3 → (tracked.event e).live = false := by decide +kernel
/-- A splice point on tag 100 with the given PS. -/
def splice (ps : Stamp) : List Byte := frame 100 24 64 0 ps 0
def spliceCell (ps : Stamp) : Cell := { cell1 with unitStart := true, splicePoint := true, ps := some ps }
theorem judge_splice : judge (splice 5000000) = some (spliceCell 5000000) := by decide +kernel
/-- `tracked` with SCHEDULED event 9 of clip 5 in the list of service 3, which is in state `x`, with S at `n`. -/
def expecting (x : SvcState) (n : Stamp) : State :=
  { ((tracked.modSvc 3 (fun y => { y with state := x, kind := some .loss })).modEvent 9 (fun y =>
      { y with state := .scheduled, service := 3, s := some n, clips := [5] })).setList 3 [9] with
    clips := loaded.clips }
/-- A PS at the first and at the last stamp of the due window, at its end, and before it: the splice times 5,000,000 plus
the preroll, 1 and 0 less than the exit window before it, and farther off; and a busy service. -/
theorem witness_NetworkCellIsTrackedAndForwarded_due :
    ((expecting .network 25000000).svc 3).cfg.preroll = 20000000 ∧
      ((expecting .network 25000000).svc 3).cfg.exitWindow = 5000000 ∧ (spliceCell 5000000).ps = some 5000000 ∧
      ((5000000 : Stamp) - (25000000 - BitVec.ofNat 36 20000000)).toNat = 0 ∧
      ((1 + BitVec.ofNat 36 5000000 : Stamp) - 5000000).toNat = 1 ∧
      ((5000000 : Stamp) - (0 + BitVec.ofNat 36 5000000)).toNat = 0 ∧
      2 ^ 35 ≤ ((5000000 : Stamp) - (25000001 - BitVec.ofNat 36 20000000)).toNat ∧
      (expecting .network 1).list 3 = [9] ∧ ((expecting .network 1).event 9).state = .scheduled ∧
      ((expecting .network 1).event 9).service = 3 ∧ ((expecting .network 1).svc 3).lastPs.isSome ∧
      ((expecting .network 1).clip 5).state = .loaded ∧ ((expecting .network 1).slot 0).owner = none ∧
      ((expecting .network 1).event 9).slot = none ∧ ((expecting .alert 1).svc 3).state = .alert ∧
      ((expecting .inserting 1).svc 3).state = .inserting ∧ ((expecting .inserting 1).svc 3).event = none := by
  decide +kernel
/-- A break cell whose PS is S, and one whose PS is 2^34 + 1 before it. -/
theorem witness_NetworkCellIsTrackedAndForwarded_break :
    (frame 100 26 64 0 5000000 0).length = 256 ∧
      judge (frame 100 26 64 0 5000000 0) = some { spliceCell 5000000 with discontinuity := true } ∧
      ((5000000 : Stamp) - 5000000).toNat = 0 ∧ 2 ^ 34 < ((5000000 + 17179869185 : Stamp) - 5000000).toNat := by
  decide +kernel
theorem witness_NetworkCellIsTrackedAndForwarded :
    (splice 5000000).length = 256 ∧ (spliceCell 5000000).kind = .media ∧ (tracked.inLane 0).state = .up ∧
      (tracked.route 1).state = .active ∧ (tracked.route 1).inLane = 0 ∧
      (tracked.route 1).inTag = (spliceCell 5000000).tag ∧ (tracked.route 1).service = some 3 ∧
      (tracked.svc 3).state = .network ∧ tracked.list 3 = [] ∧
      (tracked.outLane (tracked.route 1).outLane).fifo.length < 256 := by decide +kernel
/-- Service 3 CUEING event 9, whose splice time is 5,000,000 and whose slot 4 holds 8 cells. -/
def exiting : State :=
  { ((tracked.modSvc 3 (fun x => { x with state := .cueing, event := some 9 })).modEvent 9 (fun x =>
      { x with state := .cueing, service := 3, s := some 5000000, slot := some 4, duration := some 30000000 })) with
    slots := State.reset.slots.put 4 { Slot.reset with
      owner := some (.event 9), clips := .list [0], written := 8
      ring := List.replicate 8 ⟨cell1, 0, .absent, .absent⟩ } }
theorem witness_ExitPointSwitchesToTheRing :
    (exiting.inLane 0).state = .up ∧ (exiting.route 1).state = .active ∧ (exiting.route 1).service = some 3 ∧
      RoutesUnique exiting ∧ (exiting.svc 3).state = .cueing ∧ (exiting.svc 3).event = some 9 ∧
      (exiting.svc 3).exitPending = false ∧ exiting.list 3 = [] ∧ (exiting.event 9).rehearse = false ∧
      (exiting.event 9).s = some 5000000 ∧ (exiting.event 9).slot = some 4 ∧ 8 ≤ (exiting.slot 4).ring.length ∧
      (spliceCell 5000000).unitStart = true ∧ (spliceCell 5000000).splicePoint = true ∧
      (spliceCell 5000000).ps = some 5000000 ∧ ((5000000 : Stamp) - 5000000).toNat < 2 ^ 35 ∧
      (spliceCell 5000000).discontinuity = false ∧ (exiting.event 9).duration = some 30000000 := by
  refine ⟨?_, ?_, ?_, routesUnique_of_one 1 ?_, ?_, ?_, ?_, ?_, ?_, ?_, ?_, ?_, ?_, ?_, ?_, ?_, ?_, ?_⟩ <;> decide +kernel
/-- `exiting` with a change of the service and of the event. -/
def exitingAs (f : Service → Service) (g : Event → Event) : State := (exiting.modSvc 3 f).modEvent 9 g
/-- A unit start that is no splice point, with its PS at the end of the exit window of `exiting`. -/
def windowEnd : List Byte := frame 100 16 64 0 10000000 0
def windowEndCell : Cell := { cell1 with unitStart := true, ps := some 10000000 }
theorem releasedAlone_of {s : State} {k : SlotId} (h : (s.slot k).readers = []) (w : s.waitList = [])
    (f : s.port.fetch = none) : ReleasedAlone s k :=
  ⟨h, w, fun g hg => by rw [f] at hg; cases hg⟩
theorem witness_ExitPointSwitchesToTheRing_pending :
    let s := exitingAs (fun x => { x with exitPending := true }) id
    judge media = some cell1 ∧ RoutesUnique s ∧ (s.svc 3).state = .cueing ∧ (s.svc 3).event = some 9 ∧
      (s.svc 3).exitPending = true ∧ (s.event 9).rehearse = false ∧ (s.event 9).s = some 5000000 ∧
      (s.event 9).slot = some 4 := by
  refine ⟨judge_media, routesUnique_of_one 1 ?_, ?_⟩ <;> decide +kernel
theorem witness_ExitPointSwitchesToTheRing_rehearsal :
    let s := exitingAs id (fun x => { x with rehearse := true })
    RoutesUnique s ∧ ReleasedAlone s 4 ∧ (s.outLane 0).fifo.length < 256 ∧ (s.svc 3).exitPending = false ∧
      8 ≤ (s.slot 4).ring.length ∧ (s.event 9).rehearse = true ∧ (s.event 9).state = .cueing := by
  refine ⟨routesUnique_of_one 1 ?_, releasedAlone_of ?_ ?_ ?_, ?_⟩ <;> decide +kernel
/-- The end of the window with a ring of 7 cells, without force, and with force and 8 cells. -/
theorem witness_ExitPointSwitchesToTheRing_window (f : Bool) :
    let s := exitingAs id (fun x => { x with force := f })
    let u := exiting.modSlot 4 (fun x => { x with ring := x.ring.drop 1 })
    windowEnd.length = 256 ∧ judge windowEnd = some windowEndCell ∧ windowEndCell.splicePoint = false ∧
      windowEndCell.ps = some 10000000 ∧ RoutesUnique s ∧ ReleasedAlone s 4 ∧
      ((10000000 : Stamp) - (5000000 + BitVec.ofNat 36 (s.svc 3).cfg.exitWindow)).toNat = 0 ∧
      (s.event 9).force = f ∧ (s.event 9).state = .cueing ∧ (s.event 9).service = 3 ∧
      (s.slot 4).ring.length = 8 ∧ RoutesUnique u ∧ ReleasedAlone u 4 ∧ (u.slot 4).ring.length = 7 := by
  cases f <;> refine ⟨?_, ?_, ?_, ?_, routesUnique_of_one 1 ?_, releasedAlone_of ?_ ?_ ?_, ?_, ?_, ?_, ?_, ?_,
    routesUnique_of_one 1 ?_, releasedAlone_of ?_ ?_ ?_, ?_⟩ <;> decide +kernel
/-- `exiting` at its lane's loss deadline. -/
theorem witness_LaneLossTakesTheLaneDown_cueing :
    let s := { exiting with now := 100, due := [.laneLoss 0] }
    (s.inLane 0).state = .up ∧ (s.inLane 0).lastArrival = some 0 ∧ s.servicesOn 0 = [3] ∧
      (s.svc 3).state = .cueing ∧ (s.svc 3).event = some 9 ∧ (s.event 9).state = .cueing ∧
      (s.event 9).service = 3 ∧ (s.event 9).slot = some 4 ∧ (s.slot 4).readers = [] ∧ s.waitList = [] ∧
      s.port.fetch = none ∧ (s.svc 3).cfg.lossClip = none := by decide +kernel
/-- The break of `exiting` later: service 3 RETURNING with reference 5,000,000, its reader at the tail. -/
def back : State :=
  { ((tracked.modSvc 3 (fun x => { x with
      state := .returning, kind := some .ad, event := some 9, slot := some 4, returnRef := some 5000000
      backstop := some 5000 })).modEvent 9 (fun x =>
      { x with state := .active, service := 3, s := some 1000, slot := some 4, px := some 1000
               tr := some 5000000, outcome := some .completed })) with
    slots := State.reset.slots.put 4 { Slot.reset with
      owner := some (.event 9), clips := .list [0], fetchEnd := .complete, written := 8, tail := 8
      readers := [⟨3, 8, .none⟩] } }
theorem back_unique : RoutesUnique back := routesUnique_of_one 1 (by decide +kernel)
theorem witness_ReturnPointSwitchesBack :
    (back.inLane 0).state = .up ∧ (back.route 1).state = .active ∧ (back.route 1).service = some 3 ∧
      (back.svc 3).state = .returning ∧ (back.svc 3).kind = some .ad ∧ (back.svc 3).event = some 9 ∧
      (back.svc 3).returnPending = false ∧ (back.svc 3).returnRef = some 5000000 ∧ (back.svc 3).slot = some 4 ∧
      back.list 3 = [] ∧ back.waitList = [] ∧ back.port.fetch = none ∧ (back.event 9).state = .active ∧
      (back.event 9).slot = some 4 ∧ (back.event 9).tr = some 5000000 ∧ (back.event 9).outcome = some .completed ∧
      (back.slot 4).readers = [⟨3, 8, .none⟩] ∧ (back.outLane (back.route 1).outLane).fifo.length < 256 := by
  decide +kernel
/-- The same at 5,000 ms, its deadline, with the backstop due. -/
def late : State := { back with now := 5000, due := [.backstop 3] }
theorem witness_BackstopForcesTheReturn :
    Due.backstop 3 ∈ late.due ∧ (late.svc 3).backstop = some 5000 ∧ (late.now - 5000).toNat < 2 ^ 31 ∧
      (late.svc 3).state = .returning ∧ late.laneUp 3 = true ∧ (late.svc 3).returnPending = false ∧
      (late.svc 3).kind = some .ad ∧ (late.svc 3).event = some 9 := by decide +kernel
/-- The same with a return pending, and with its lane DOWN and the ring not empty; `c` is the loss clip. -/
def lateDown (c : Option ClipId) : State :=
  { ((late.modInLane 0 (fun x => { x with state := .down })).modSvc 3 (fun x =>
      { x with cfg := { x.cfg with lossClip := c } })).modSlot 4 (fun x =>
      { x with ring := [⟨cell1, 0, .absent, .absent⟩] }) with
    clips := loaded.clips }
theorem witness_BackstopForcesTheReturn_givenUp :
    let s := late.modSvc 3 (fun x => { x with returnPending := true })
    let k := lateDown (some 5)
    (s.svc 3).returnPending = true ∧ s.laneUp 3 = true ∧ (s.event 9).state = .active ∧
      (s.event 9).outcome = some .completed ∧ (s.event 9).slot = some 4 ∧ (s.slot 4).readers = [⟨3, 8, .none⟩] ∧
      s.waitList = [] ∧ s.port.fetch = none ∧ Due.backstop 3 ∈ s.due ∧ (s.slot 4).ring = [] ∧
      (lateDown none).laneUp 3 = false ∧ ((lateDown none).svc 3).cfg.lossClip = none ∧ k.laneUp 3 = false ∧
      (k.svc 3).cfg.lossClip = some 5 ∧ (k.clip 5).state = .loaded ∧ (k.slot 4).readers = [⟨3, 8, .none⟩] := by
  decide +kernel
/-- Slots 0 to 3 owned, as the grant of slot 4 to the loss fill asks; a return of kind LOSS and one of kind ALERT. -/
theorem witness_BackstopForcesTheReturn_kinds :
    let k : State := { lateDown (some 5) with slots := (lateDown (some 5)).slots.map (fun x : Slot =>
      { x with owner := x.owner.or (some (.alert 7)) }) }
    let l := (late.modSvc 3 (fun x => { x with returnPending := true, kind := some .loss })).modSlot 4 (fun x =>
      { x with owner := some (.loss 3) })
    let a := late.modSvc 3 (fun x => { x with returnPending := true, kind := some .alert, slot := none })
    (∀ j, j < (4 : SlotId) → (k.slot j).owner.isSome) ∧ (k.slot 4).owner = some (.event 9) ∧
      (l.svc 3).kind = some .loss ∧ (l.slot 4).owner = some (.loss 3) ∧
      (∀ j, j ≠ (4 : SlotId) → (l.slot j).owner ≠ some (.loss 3)) ∧ l.laneUp 3 = true ∧
      (a.svc 3).kind = some .alert ∧ (a.svc 3).slot = none ∧ a.laneUp 3 = true := by
  decide +kernel
def holding : State :=
  { tracked.modSvc 3 (fun x => { x with clock := some ⟨7, 0⟩ }) with now := 1048576, due := [.hold 3] }
theorem witness_ClockModelIsHeld :
    Due.hold 3 ∈ holding.due ∧ (holding.svc 3).clock = some ⟨7, 0⟩ ∧ (holding.svc 3).held = false ∧
      1048576 ≤ (holding.now - 0).toNat := by decide +kernel

/-! ### Witnesses: ticks, lines, counters, output lanes -/

theorem witness_TickCountsTheMillisecond : quiet.due = [] ∧ ∀ n, positionDue quiet n = false := by decide +kernel
/-- Counter `4` RUNNING on STATION_MS with the given gate and count; line 2 IN, LOW, its pending count at its debounce. -/
def timing (g : Gate) (n : Nat) : State :=
  (quiet.modLine 2 (fun x => { x with pending := 10, sampled := .low })).modCounter 4 (fun x =>
    { x with running := true, reload := 9, count := n, gate := g })
/-- Counts 1 and 2, an admitting and a closed gate, and a gate whose line has an edge due. -/
theorem witness_TickCountsTheMillisecond_counter (g : Gate) (n : Nat)
    (hg : g = .always ∨ g = .lineHigh 3 ∨ g = .lineLow 3 ∨ g = .lineLow 2) (hn : n = 1 ∨ n = 2) :
    (timing g n).due = [] ∧ (∀ m, positionDue (timing g n) m = false) ∧ ((timing g n).counter 4).source = .stationMs ∧
      ((timing g n).counter 4).running = true ∧ ((timing g n).counter 4).count = n ∧
      ((timing g n).counter 4).gate = g ∧ (Due.debounce 2 ∈ (ran (.stationTick 0xF8) (timing g n)).due) ∧
      ((ran (.stationTick 0xF8) (timing g n)).line 3).debounced = .high := by
  rcases hg with rfl | rfl | rfl | rfl <;> rcases hn with rfl | rfl <;> decide +kernel
/-- Line 2 IN with its sample LOW below a HIGH level, `n` differing samples counted. -/
def bouncing (n : Nat) : State := quiet.modLine 2 (fun x => { x with pending := n, sampled := .low })
theorem witness_TickSamplesTheLines (n : Nat) (hn : n = 9 ∨ n = 10) :
    (bouncing n).due = [] ∧ (∀ m, positionDue (bouncing n) m = false) ∧
      ((bouncing n).line 2).direction = .input ∧ ((bouncing n).line 2).debounced = .high ∧
      ((bouncing n).line 2).pending = n ∧ ((bouncing n).line 2).debounce = 10 := by
  rcases hn with rfl | rfl <;> decide +kernel
/-- A FALL of line 2 due, counted by counters 4 and 5 (gate OPEN, and gate LINE 2 LOW). -/
def edged : State :=
  { ((quiet.modLine 2 (fun x => { x with pending := 10, sampled := .low, edge := .fall })).modCounter 4 (fun x =>
      { x with source := .edges 2, running := true, reload := 9, count := 2 })).modCounter 5 (fun x =>
      { x with source := .edges 2, running := true, reload := 9, count := 3, gate := .lineLow 2 }) with
    due := [.debounce 2] }
theorem witness_DebounceEdgeTakesTheLevel :
    Settled edged ∧ Due.debounce 2 ∈ edged.due ∧ (edged.line 2).direction = .input ∧ (edged.line 2).reinit = false ∧
      (edged.line 2).sampled ≠ (edged.line 2).debounced ∧ (edged.line 2).edge = .fall ∧
      (edged.line 2).sampled = .low ∧ (edged.counter 4).source = .edges 2 ∧ (edged.counter 4).running = true ∧
      1 < (edged.counter 4).count ∧ edged.due = [.debounce 2] ∧ (edged.counter 4).gate = .always ∧
      (edged.counter 5).gate = .lineLow 2 :=
  ⟨settled_of (by decide +kernel) (by decide +kernel) (by decide +kernel), by decide +kernel⟩
/-- Counter 14 at its last count with target `x`, and counter 15 cascaded on it, RUNNING or not; channel 2 as given. -/
def expiring (x : Target) (cascade : Bool) (a : AlertState) : State :=
  { ((quiet.modCounter 14 (fun y => { y with running := true, reload := 7, count := 1, target := x })).modCounter 15
      (fun y => { y with source := .expiry, running := cascade, reload := 9, count := 2 })).modAlert 2
      (fun y => { y with state := a }) with due := [.clock 14] }
theorem witness_ExpiryFiresAndPassesOn (x : Target) (b : Bool) (a : AlertState)
    (hx : x = .nothing ∨ x = .alertOn 2 ∨ x = .alertRenew 2 ∨ x = .event 9) (ha : a = .active ∨ a = .idle) :
    Settled (expiring x b a) ∧ Due.clock 14 ∈ (expiring x b a).due ∧ ((expiring x b a).counter 14).running = true ∧
      ((expiring x b a).counter 14).gate = .always ∧ ((expiring x b a).counter 14).count = 1 ∧
      ((expiring x b a).counter 14).target = x ∧ ((expiring x b a).counter 15).source = .expiry ∧
      ((expiring x b a).counter 15).running = b ∧ ((expiring x b a).counter 15).gate = .always ∧
      1 < ((expiring x b a).counter 15).count ∧ ((expiring x b a).alert 2).state = a ∧
      ((expiring x b a).alert 2).masked = true ∧ ((expiring x b a).event 9).state ≠ .scheduled := by
  refine ⟨settled_of ?_ ?_ ?_, ?_⟩ <;>
    rcases hx with rfl | rfl | rfl | rfl <;> rcases ha with rfl | rfl <;> cases b <;> decide +kernel
def guarded (g : Fin 4) : State := State.reset.modCounter 3 (fun x => { x with guard := g })
theorem witness_CountersStartAndStop :
    low.cls ≤ ((guarded 1).counter 3).guard ∧ ((guarded 0).counter 3).guard < low.cls := by decide +kernel
/-- A window of OL0 due to begin; service 3 reads slot 4 at a lateness past its limit. -/
def windowed : State :=
  { tracked.modSvc 3 (fun x => { x with slot := some 4, clock := some ⟨7, 0⟩, lateness := 2000001 }) with
    due := [.window 0] }
theorem witness_WindowStartReloadsTheLane :
    Due.window 0 ∈ windowed.due ∧ RoutesUnique windowed ∧ (windowed.route 1).service = some 3 ∧
      (windowed.route 1).outLane = 0 ∧ (windowed.svc 3).slot.isSome ∧ (windowed.svc 3).clock.isSome :=
  ⟨by decide +kernel, routesUnique_of_one 1 (by decide +kernel), by decide +kernel⟩
/-- The first and the last position of a window are due, the position after the last is not. -/
theorem witness_PositionIsNeverEmpty :
    positionDue lit 0 = true ∧
      positionDue { lit.modOutLane 0 (fun o => { o with position := 255 }) with now := 9 } 0 = true ∧
      positionDue { lit.modOutLane 0 (fun o => { o with position := 256 }) with now := 9 } 0 = false := by
  decide +kernel
theorem witness_PositionCarriesWhatIsFirst :
    Settled (answered 1) ∧ positionDue (answered 1) 0 = true ∧ ((answered 1).outLane 0).reserveUsed = false ∧
      ((answered 1).channel 0).enabled = true ∧ ((answered 1).channel 0).respLane = 0 ∧
      ((answered 1).channel 0).queue = [plain .response 4088] ∧
      (∀ g, g ≠ 0 → ((answered 1).channel g).enabled = false) ∧
      Settled (queuedUp 1) ∧ positionDue (queuedUp 1) 0 = true ∧ ((queuedUp 1).outLane 0).fifo = [⟨1, cell1⟩] ∧
      (∀ h, ((queuedUp 1).channel h).queue = []) ∧ (∀ v, ((queuedUp 1).svc v).slot = none) ∧
      (lit.outLane 0).fifo = [] ∧ (∀ h, (lit.channel h).queue = []) ∧ ∀ v, (lit.svc v).slot = none := by
  refine ⟨settled_of ?_ ?_ ?_, ?_, ?_, ?_, ?_, ?_, ?_, settled_of ?_ ?_ ?_, ?_⟩ <;> decide +kernel
/-- Channels 0 and 2 with a response queued on OL0, the response rotation and the reserve as given. -/
def queuing (rot : Option ChannelId) (used : Bool) : State :=
  ((lit.modChannel 0 (fun c => { c with queue := [plain .response 4088] })).modChannel 2 (fun c =>
    { c with enabled := true, queue := [plain .response 7] })).modOutLane 0 (fun o =>
    { o with respRot := rot, reserveUsed := used })
/-- After channel 0 the turn of channel 2 comes first, after channel 2 that of channel 0. -/
theorem witness_PositionCarriesWhatIsFirst_rotation (b : Bool) :
    Settled (queuing (some 0) b) ∧ positionDue (queuing (some 0) b) 0 = true ∧
      ((queuing (some 0) b).outLane 0).respRot = some 0 ∧ ((queuing (some 2) b).outLane 0).respRot = some 2 ∧
      ((2 : ChannelId).val + 3 - (0 : ChannelId).val) % 4 < ((0 : ChannelId).val + 3 - (0 : ChannelId).val) % 4 ∧
      ((0 : ChannelId).val + 3 - (2 : ChannelId).val) % 4 < ((2 : ChannelId).val + 3 - (2 : ChannelId).val) % 4 ∧
      ((queuing (some 0) b).outLane 0).reserveUsed = b ∧ ((queuing (some 0) b).outLane 0).fifo = [] ∧
      ((queuing (some 0) b).channel 2).queue = [plain .response 7] ∧
      ∀ v, ((queuing (some 0) b).svc v).slot = none := by
  refine ⟨settled_of ?_ ?_ ?_, ?_⟩ <;> cases b <;> decide +kernel
theorem test_response_rotation :
    [((none : Option ChannelId), (4088 : BitVec 12)), (some 0, 7), (some 1, 7), (some 2, 4088)].all (fun x =>
      decide (((ran (.outputPosition 0) (queuing x.1 true)).outLane 0).out.map Cell.tag = some x.2)) = true := by
  decide +kernel
def ringCell : RingCell := ⟨spliceCell 0, 0, .pos 50, .pos 70⟩
/-- Service 3 in loss fill from slot 4, with one cell of allotment left. -/
def filling (clock : Option ClockModel) : State :=
  { ((tracked.modSvc 3 (fun x => { x with
      state := .inserting, kind := some .loss, slot := some 4, base := 1000, insertMark := true
      clock := clock })).modOutLane 0 (fun o => { o with remaining := o.remaining.put 3 1 })) with
    slots := State.reset.slots.put 4 { Slot.reset with
      owner := some (.loss 3), clips := .looped 0, fetchEnd := .complete, written := 9, tail := 8, ring := [ringCell]
      readers := [⟨3, 8, .none⟩] } }
theorem witness_InsertedCellIsRebased :
    positionDue (filling none) 0 = true ∧ (∀ h, ((filling none).channel h).queue = []) ∧
      (∀ w, w ≠ (3 : SvcId) → ((filling none).outLane 0).remaining.get w = 0) ∧
      ((filling none).outLane 0).remaining.get 3 = 1 ∧ ((filling none).outLane 0).held.get 3 = false ∧
      RoutesUnique (filling none) ∧ ((filling none).route 1).service = some 3 ∧
      ((filling none).route 1).outLane = 0 ∧ ((filling none).outLane 0).fifo = [] ∧
      ((filling none).svc 3).slot = some 4 ∧ ((filling none).svc 3).clock = none ∧
      ((filling none).slot 4).owner = some (.loss 3) ∧
      ((filling none).slot 4).readers = [⟨3, ((filling none).slot 4).tail, .none⟩] ∧
      ((filling none).slot 4).ring = [ringCell] ∧ ringCell.rs ≠ .stray ∧ ringCell.ps ≠ .stray := by
  refine ⟨?_, ?_, ?_, ?_, ?_, routesUnique_of_one 1 ?_, ?_⟩ <;> decide +kernel
/-- The same from slot 4 of owner `o` with head `c`, an ACTIVE event 9, and a shed level and pattern counter. -/
def judging (c : RingCell) (level pattern : Nat) (o : Owner) : State :=
  (((filling (some ⟨1050 - 2000000, 0⟩)).modSvc 3 (fun x =>
    { x with shedLevel := level, shedPattern := pattern })).modSlot 4 (fun x =>
    { x with owner := some o, ring := [c] })).modEvent 9 (fun x => { x with state := .active, service := 3 })
def strayCell : RingCell := ⟨cell1, 0, .stray, .stray⟩
/-- The head stands exactly at the lead limit; the pattern counter at the shed level, and one below it. -/
theorem witness_InsertedCellIsRebased_judged (pattern : Nat) (hp : pattern = 1 ∨ pattern = 2) :
    let s := judging ringCell 2 pattern (.event 9)
    positionDue s 0 = true ∧ (s.svc 3).clock = some ⟨1050 - 2000000, 0⟩ ∧ (s.svc 3).held = false ∧
      (s.svc 3).shedLevel = 2 ∧ (s.svc 3).shedPattern = pattern ∧ ringCell.cell.essential = false ∧
      (s.slot 4).owner = some (.event 9) ∧ (s.event 9).state = .active ∧ (s.event 9).service = 3 ∧
      (s.slot 4).ring = [ringCell] ∧ (s.outLane 0).fifo = [] ∧ RoutesUnique s ∧
      -((1050 - 2000000 + BitVec.ofNat 36 ((s.now - 0).toNat * 10000) - ((s.svc 3).base + 50)) : Stamp).toInt =
        ((s.svc 3).cfg.leadLimit : Int) := by
  rcases hp with rfl | rfl <;>
    refine ⟨?_, ?_, ?_, ?_, ?_, ?_, ?_, ?_, ?_, ?_, ?_, routesUnique_of_one 1 ?_, ?_⟩ <;> decide +kernel
theorem test_stray_stamps_removed :
    let t := ran (.outputPosition 0) (judging strayCell 2 2 (.event 9))
    (t.outLane 0).out.map (fun c => (c.rs, c.ps)) = some (none, none) ∧ (t.svc 3).strayCount = 2 ∧
      (t.svc 3).straySeen = true ∧ (t.event 9).inserted = 1 ∧ (t.svc 3).shedPattern = 3 := by decide +kernel
theorem test_head_is_shed :
    let t := ran (.outputPosition 0) (judging ringCell 2 1 (.event 9))
    (t.outLane 0).out.map Cell.kind = some .filler ∧ (t.event 9).shed = 1 ∧ (t.slot 4).ring = [] ∧
      (t.svc 3).shedPattern = 2 := by decide +kernel
/-- The head's RS is 2,000,001 ticks ahead of the projection, one past the lead limit. -/
def early : State := filling (some ⟨1050 - 2000001, 0⟩)
theorem witness_EarlyHeadHoldsTheService :
    Settled early ∧ positionDue early 0 = true ∧ (∀ h, (early.channel h).queue = []) ∧
      (∀ w, w ≠ (3 : SvcId) → (early.outLane 0).remaining.get w = 0) ∧ (early.outLane 0).remaining.get 3 = 1 ∧
      (early.outLane 0).held.get 3 = false ∧ RoutesUnique early ∧ (early.route 1).service = some 3 ∧
      (early.outLane 0).fifo = [] ∧ (early.svc 3).slot = some 4 ∧ (early.svc 3).clock = some ⟨1050 - 2000001, 0⟩ ∧
      (early.svc 3).held = false ∧ (early.slot 4).readers = [⟨3, (early.slot 4).tail, .none⟩] ∧
      (early.slot 4).ring = [ringCell] ∧
      ((early.svc 3).cfg.leadLimit : Int) < -((1050 - 2000001 + BitVec.ofNat 36 ((early.now - 0).toNat * 10000) -
        ((early.svc 3).base + 50)) : Stamp).toInt := by
  refine ⟨settled_of ?_ ?_ ?_, ?_, ?_, ?_, ?_, ?_, routesUnique_of_one 1 ?_, ?_⟩ <;> decide +kernel

/-! ### Witnesses: store port, feeder, alert channels -/

/-- REQUESTING with slots 3 and 6 wanting, the first with a cell in its ring; slot `alertSlot`, if any, is an alert's. -/
def requesting (alertSlot : Option SlotId) : State :=
  { loaded.modPort (fun p => { p with phase := .requesting }) with
    slots := Vector.ofFn (fun k => { Slot.reset with
      owner := if k = 3 ∨ k = 6 then (if alertSlot = some k then some (.alert 1) else some (.loss 3)) else none
      clips := .looped 5, ring := if k = 3 then [ringCell] else [], written := if k = 3 then 1 else 0 }) }
theorem witness_GrantTakesTheBus :
    Settled State.reset ∧ State.reset.port.phase ≠ .requesting ∧
      (∀ n, ((requesting none).line n).direction = .input) ∧ (requesting none).port.phase = .requesting ∧
      1 ≤ (requesting none).port.tenureLimit ∧ (requesting none).port.resume = false ∧
      (requesting none).port.duty < (requesting none).port.dutyLimit ∧
      ((requesting none).slot 6).wants = true ∧ ((requesting none).slot 6).ring.length = 0 ∧
      ((requesting none).slot 3).ring.length = 1 ∧ ((requesting none).slot 6).clips = .looped 5 ∧
      ((requesting none).clip 5).state = .loaded ∧ ((requesting none).window 2).enabled = true ∧
      ((requesting (some 3)).slot 3).owner = some (.alert 1) ∧ ((requesting (some 3)).slot 3).wants = true :=
  ⟨settled_reset, by decide +kernel⟩
/-- OWNER of the bus, fetching cell `cell` of clip 5 for slot 6, in the last cell of its tenure. -/
def owning (o : Owner) (f : Fetch) : State :=
  { loaded.modPort (fun p => { p with
      phase := .owner, fetch := some f, tenure := 4, duty := 4
      buffer := (frame 0 16 0 0 0 0).take (32 * f.burst) }) with
    slots := State.reset.slots.put 6 { Slot.reset with
      owner := some o, clips := .looped 5, cursor := ⟨0, 2, 7⟩, inFlight := some ⟨0, 2, 7⟩ } }
def fetch6 (burst : Nat) (beat : Option Nat) (retry : Nat) : Fetch :=
  { slot := 6, point := ⟨0, 2, 7⟩, addr := 1792, burst := burst, beat := beat, retry := retry }
theorem settled_owning (o : Owner) (f : Fetch) : Settled (owning o f) :=
  ⟨fun n hn => absurd (((by decide +kernel : ∀ n, (loaded.line n).direction = .input) n).symm.trans hn) (by decide),
    fun h => by cases h⟩
theorem witness_AnswersMoveTheBurst :
    (∀ f, Settled (owning (.loss 3) f)) ∧ (fetch6 6 none 0).burst < 7 ∧ (fetch6 6 none 0).beat = none ∧
      (fetch6 6 (some 2) 0).beat = some 2 ∧ (fetch6 6 (some 3) 0).beat = some 3 ∧ (fetch6 6 none 7).retry < 8 :=
  ⟨settled_owning _, by decide⟩
theorem lastOfTenure_owning (o : Owner) (burst : Nat) (retry : Nat) :
    LastOfTenure (owning o (fetch6 burst none retry)) (fetch6 burst none retry) 5 :=
  ⟨settled_owning _ _, rfl, rfl, rfl, rfl, Nat.le_refl 4, Nat.le_succ 1, rfl, rfl, .inr rfl,
    show 7 + 1 < 40 by decide⟩
/-- The store's data is the cell's last 32 bytes. -/
def last32 : List Byte := (frame 0 16 0 0 0 0).drop 224
theorem witness_FinishedFetchFillsTheRing :
    LastOfTenure (owning (.event 9) (fetch6 7 none 0)) (fetch6 7 none 0) 5 ∧ (fetch6 7 none 0).burst = 7 ∧
      (fetch6 7 none 0).beat = none ∧ ((owning (.event 9) (fetch6 7 none 0)).slot 6).readers = [] ∧
      ((owning (.event 9) (fetch6 7 none 0)).slot 6).owner = some (.event 9) ∧
      (judge ((owning (.event 9) (fetch6 7 none 0)).port.buffer ++ last32)).map Cell.kind = some .media :=
  ⟨lastOfTenure_owning _ _ _, by decide +kernel⟩
/-- A break whose slot is slot 6, and a live alert channel 1 with three faults in a row. -/
def breaking : State :=
  ((owning (.event 9) (fetch6 0 none 8)).modSvc 3 (fun x => { x with state := .inserting })).modEvent 9 (fun x =>
    { x with state := .active, service := 3, slot := some 6, outcome := some .completed })
def stalling : State :=
  (owning (.alert 1) (fetch6 0 none 8)).modAlert 1 (fun x => { x with state := .active, faults := 3, slot := some 6 })
theorem witness_StoreFaultsGoToTheOwner :
    LastOfTenure (owning (.loss 3) (fetch6 0 none 8)) (fetch6 0 none 8) 5 ∧ 8 ≤ (fetch6 0 none 8).retry ∧
      Settled breaking ∧ breaking.port = (owning (.event 9) (fetch6 0 none 8)).port ∧
      (breaking.slot 6).owner = some (.event 9) ∧ (breaking.event 9).state = .active ∧
      (breaking.event 9).slot = some 6 ∧ (breaking.svc 3).state = .inserting ∧
      Settled stalling ∧ stalling.port = (owning (.alert 1) (fetch6 0 none 8)).port ∧
      (stalling.slot 6).owner = some (.alert 1) ∧ (stalling.alert 1).state = .active ∧
      3 ≤ (stalling.alert 1).faults := by
  refine ⟨lastOfTenure_owning _ _ _, by decide, ⟨fun n => ?_, fun h => by cases h⟩, by decide +kernel,
    by decide +kernel, by decide +kernel, by decide +kernel, by decide +kernel, ⟨fun n => ?_, fun h => by cases h⟩,
    by decide +kernel⟩ <;> revert n <;> decide +kernel
/-- The event of `breaking` still CUEING, its slot without readers. -/
def cueingFault : State :=
  (breaking.modSvc 3 (fun x => { x with state := .cueing, event := some 9 })).modEvent 9 (fun x =>
    { x with state := .cueing, outcome := none })
theorem witness_StoreFaultsGoToTheOwner_cueing :
    Settled cueingFault ∧ cueingFault.port = (owning (.event 9) (fetch6 0 none 8)).port ∧
      (cueingFault.slot 6).owner = some (.event 9) ∧ (cueingFault.event 9).state = .cueing ∧
      (cueingFault.event 9).slot = some 6 ∧ (cueingFault.event 9).service = 3 ∧
      (cueingFault.slot 6).readers = [] ∧ cueingFault.waitList = [] := by
  refine ⟨⟨fun n => ?_, fun h => by cases h⟩, ?_⟩
  · revert n; decide +kernel
  · decide +kernel
/-- The fetch abandoned, and the burst that a RESTART left. -/
def abandoning : State := (owning (.loss 3) (fetch6 3 none 0)).modPort (fun p => { p with abandon := true })
def leftOver : State := (owning (.loss 3) (fetch6 3 none 0)).modPort (fun p => { p with fetch := none })
theorem witness_BackOffAndGapEndTheTenure_abandoned :
    abandoning.port.phase = .owner ∧ 1 ≤ abandoning.port.gap ∧ abandoning.port.fetch = some (fetch6 3 none 0) ∧
      abandoning.port.abandon = true ∧ leftOver.port.phase = .owner ∧ 1 ≤ leftOver.port.gap ∧
      leftOver.port.fetch = none := by decide +kernel
theorem witness_BackOffAndGapEndTheTenure :
    State.reset.port.phase ≠ .owner ∧ State.reset.port.phase ≠ .releasing ∧
      (owning (.loss 3) (fetch6 3 (some 1) 2)).port.phase = .owner ∧
      1 ≤ (owning (.loss 3) (fetch6 3 (some 1) 2)).port.gap ∧
      (owning (.loss 3) (fetch6 3 (some 1) 2)).port.fetch = some (fetch6 3 (some 1) 2) ∧
      (owning (.loss 3) (fetch6 3 (some 1) 2)).port.abandon = false ∧ (releasing 1).port.phase = .releasing := by
  decide +kernel
/-- A quotient exactly halfway. -/
theorem witness_TrimIsRoundedToNearest :
    2 * (trimOf 8388608 1 * 2 ^ 24 - 8388608 * 1).natAbs = 2 ^ 24 ∧
      ((900000 - 16777216 : Stamp) - clipA.c0).toInt = -16777216 ∧
      ((900000 - 16777217 : Stamp) - clipA.c0).toInt = -16777217 := by decide
theorem witness_FeedPositionsPayOutTheFraction : 65535 < 65536 := by decide
/-- Channel 2 IDLE, unmasked, with priority 2 and target group service 3; service 3 as in `tracked`. -/
def armed : State := tracked.modAlert 2 (fun x => { x with masked := false, group := 8, clip := 5 })
theorem witness_AlertOnActivates :
    top.cls = 0 ∧ (armed.alert 2).state = .idle ∧ (armed.alert 2).masked = false ∧ (armed.alert 2).priority.isSome ∧
      (armed.slot 0).owner = none ∧ (∀ j, j < (0 : SlotId) → (armed.slot j).owner.isSome) ∧
      armed.port.phase ≠ .owner ∧ ∀ e, (armed.event e).slot ≠ some 0 := by decide +kernel
/-- Every slot owned, as `f` says, with its number as its exit millisecond. -/
def crowded (f : SlotId → Owner) : State :=
  { armed with slots := Vector.ofFn (fun k =>
      { Slot.reset with owner := some (f k), exitMs := some (BitVec.ofNat 32 k.val) }) }
/-- Slot 6 is event 9's, of service 3 in the group or service 5 outside it; the others are alert slots. -/
def contested (e : EventState) (v : SvcId) : State :=
  (crowded (fun k => if k = 6 then .event 9 else .alert 1)).modEvent 9 (fun y =>
    { y with state := e, service := v, slot := some 6 })
theorem contested_adSlot (e : EventState) (v : SvcId) (P : Event → Prop) (j : SlotId) :
    AdSlot (contested e v) P j ↔ j = 6 ∧ P ((contested e v).event 9) := by
  have h : ((contested e v).slot j).owner = some (if j = 6 then .event 9 else .alert 1) := by
    simp [contested, crowded, State.slot, State.modEvent, Tbl.get]
  unfold AdSlot
  rw [h]
  by_cases hj : j = 6 <;> simp [hj]
theorem contested_event (e : EventState) (v : SvcId) :
    ((contested e v).event 9).state = e ∧ ((contested e v).event 9).service = v := by
  simp [contested]
theorem contested_lossSlot (e : EventState) (v : SvcId) (j : SlotId) : ¬LossSlot (contested e v) j := by
  rintro ⟨w, h⟩
  have k : ((contested e v).slot j).owner = some (if j = 6 then .event 9 else .alert 1) := by
    simp [contested, crowded, State.slot, State.modEvent, Tbl.get]
  rw [k] at h
  split at h <;> cases h
/-- The victims of steps 1, 3 and 4 of R105. -/
theorem witness_AlertOnActivates_reclaim (e : EventState) (v : SvcId) (he : e = .cueing ∨ e = .active)
    (hv : v = 3 ∨ v = 5) :
    (∀ j, ((contested e v).slot j).owner.isSome) ∧ IsVictim (contested e v) 8 6 ∧
      ((contested e v).slot 6).owner = some (.event 9) ∧ ((contested e v).event 9).state = e ∧
      ¬BetweenTransfers (contested e v) := by
  refine ⟨?_, ?_, ?_, (contested_event e v).1, fun h => ?_⟩
  · rcases he with rfl | rfl <;> rcases hv with rfl | rfl <;> decide +kernel
  · obtain ⟨h1, h2⟩ := contested_event e v
    unfold IsVictim
    simp only [contested_adSlot, h1, h2, contested_lossSlot]
    rcases he with rfl | rfl <;> rcases hv with rfl | rfl
    · exact .inl (by decide)
    · exact .inr (.inr (.inr (by decide)))
    · exact .inl (by decide)
    · exact .inr (.inr (.inl ⟨by decide, by decide, fun j hj hk => absurd hk.1 hj⟩))
  · rcases he with rfl | rfl <;> rcases hv with rfl | rfl <;> decide +kernel
  · have := h.1
    revert this
    rcases he with rfl | rfl <;> rcases hv with rfl | rfl <;> decide +kernel
/-- The victim of step 2: the loss fill of service 7, which is outside the group. -/
def lossy : State :=
  (crowded (fun k => if k = 6 then .loss 7 else .alert 1)).modSvc 7 (fun x =>
    { x with state := .inserting, kind := some .loss, slot := some 6 })
theorem lossy_owner (j : SlotId) : (lossy.slot j).owner = some (if j = 6 then .loss 7 else .alert 1) := by
  revert j; decide +kernel
theorem witness_AlertOnActivates_lossFill :
    (∀ j, (lossy.slot j).owner.isSome) ∧ IsVictim lossy 8 6 ∧ (lossy.slot 6).owner = some (.loss 7) ∧
      (lossy.svc 7).state = .inserting ∧ (lossy.alert 2).group.getLsbD (7 : SvcId).val = false ∧
      lossy.waitList = [] := by
  refine ⟨by decide +kernel, .inr (.inl ⟨?_, ⟨7, lossy_owner 6⟩, ?_⟩), by decide +kernel⟩
  · rintro j ⟨e, h, -⟩
    rw [lossy_owner] at h
    split at h <;> cases h
  · rintro j hj ⟨v, h⟩
    rw [lossy_owner, if_neg (ne_of_lt hj)] at h
    cases h
theorem witness_AlertTakesANetworkService :
    (∀ w : SvcId, (armed.alert 2).group.getLsbD w.val = true ↔ w = 3) ∧
      (∀ b, b ≠ (2 : AlertId) → (armed.alert b).state = .idle) ∧ (armed.svc 3).state = .network ∧
      (armed.svc 3).lossWaiting = false ∧ (armed.svc 3).owner = none ∧ (armed.route 1).state = .active ∧
      (armed.route 1).service = some 3 := by decide +kernel
/-- The same channel live on slot 0 with its lease at its deadline. -/
def alive : State :=
  { (armed.modAlert 2 (fun x => { x with state := .active, deadline := some 500, slot := some 0 })).modSlot 0 (fun x =>
      { x with owner := some (.alert 2), clips := .looped 5 }) with now := 500, due := [.lease 2] }
theorem witness_RenewalMovesTheDeadline :
    top.cls = 0 ∧ (alive.alert 2).state ≠ .idle ∧ (State.reset.alert 2).state = .idle ∧
      (State.reset.alert 2).masked = true ∧ (armed.alert 2).state = .idle ∧ low.cls ≠ 0 ∧
      ((armed.modAlert 2 (fun x => { x with priority := none })).alert 2).priority = none := by decide +kernel
theorem witness_AlertChannelsEnd :
    top.cls = 0 ∧ (alive.alert 2).state ≠ .idle ∧ Due.lease 2 ∈ alive.due ∧ (alive.alert 2).deadline = some 500 ∧
      (alive.now - 500).toNat < 2 ^ 31 ∧ (armed.alert 2).state = .idle ∧ low.cls ≠ 0 := by decide +kernel
/-- Service 3 owned by channel 2, its lane as given; channel 5 claims it too, or not. -/
def owned (claimed : Bool) (l : LaneState) : State :=
  ((((alive.modSvc 3 (fun x => { x with state := .alert, owner := some 2, slot := some 0 })).modSlot 0 (fun x =>
    { x with readers := [⟨3, 0, .none⟩] })).modAlert 5 (fun x =>
    { x with state := if claimed then .active else .idle, group := 8, slot := some 1 })).modSlot 1 (fun x =>
    { x with owner := some (.alert 5) })).modInLane 0 (fun x => { x with state := l })
theorem witness_AlertChannelsEnd_service (b : Bool) (l : LaneState) :
    (∀ w : SvcId, ((owned b l).alert 2).group.getLsbD w.val = true ↔ w = 3) ∧ ((owned b l).alert 2).state ≠ .idle ∧
      ((owned b l).svc 3).owner = some 2 ∧ (owned b l).waitList = [] ∧
      (((owned b l).alert 5).state ≠ .idle ↔ b = true) ∧ ((owned b l).alert 5).group.getLsbD (3 : SvcId).val = true ∧
      (∀ c, c ≠ 2 → c ≠ 5 → ((owned b l).alert c).state = .idle) ∧ (owned b l).laneUp 3 = decide (l = .up) ∧
      ((owned b l).svc 3).cfg.lossClip = none ∧ (owned b l).port.phase ≠ .owner ∧
      ((owned b l).route 1).service = some 3 ∧ ((owned b l).alert 5).slot = some 1 := by
  cases b <;> cases l <;> decide +kernel
theorem witness_FaultsStallAndCellsRecover : (stalling.alert 1).state ≠ .idle := by decide +kernel

/-! ### Witnesses: management, writes, actions -/

/-- The cells taken in: a well-formed POINT and a malformed cell. -/
def takenIn (c : Cell) : State := { lit with intake := [⟨0, 2, c⟩] }
theorem witness_ControlCellIsAnswered :
    State.reset.intake = [] ∧ (takenIn (plain .control 4080)).intake = [⟨0, 2, plain .control 4080⟩] ∧
      parseControl (plain .control 4080) = none ∧ (takenIn pointCell).intake = [⟨0, 2, pointCell⟩] ∧
      parseControl pointCell = some ⟨9, 2, [⟨2, Table.code .store, 0, []⟩]⟩ ∧ 0 < Table.store.entries (takenIn pointCell) :=
  by decide +kernel
/-- A READ of one entry and of the most a record can ask for. -/
theorem witness_ReadReturnsTheImages :
    63 < Table.service.entries State.reset ∧ (1 : Byte) ≠ 0 ∧ (255 : Byte) ≠ 0 ∧
      (∀ e, (State.reset.event e).clips.length ≤ 8) ∧
      (State.reset.slot 15).readers.length ≤ 0 ∧ 68 ≤ top.room := by decide +kernel
def pointed (t : Table) (i : Nat) : State := State.reset.modChannel 0 (fun c => { c with cursor := some (t, i) })
theorem witness_CursorVerbsUseTheCursor :
    0 < Table.store.entries State.reset ∧ Table.store.entries State.reset ≤ 1 ∧ (State.reset.channel top.ch).cursor = none ∧
      ((pointed .store 0).channel top.ch).cursor = some (.store, 0) ∧ Table.store.imageBytes ≤ top.room ∧
      ((pointed .store 1).channel top.ch).cursor = some (.store, 1) ∧ Table.store.entries (pointed .store 1) ≤ 1 ∧
      Table.store.writable = true ∧ (List.replicate 8 (0 : Byte)).length = Table.store.imageBytes := by decide +kernel
/-- One byte short of room and of the image. -/
theorem witness_CursorVerbsUseTheCursor_refused :
    (⟨0, 0, 7⟩ : Ctx).room < Table.store.imageBytes ∧ ((pointed .store 0).channel (⟨0, 0, 7⟩ : Ctx).ch).cursor = some (.store, 0) ∧
      (List.replicate 7 (0 : Byte)).length ≠ Table.store.imageBytes ∧ 0 < Table.store.entries (pointed .store 0) := by
  decide +kernel
theorem witness_WriteDecodesTheImage :
    ∀ t : Table, (List.replicate t.imageBytes (0 : Byte)).length = t.imageBytes := by intro t; cases t <;> rfl
/-- A TIME event one tick after the preroll, as long as a nominal duration can be, behind event 1 in the list. -/
def scheduled : State :=
  { loaded.modSvc 3 (fun x => { x with state := .network, lastPs := some 1000 }) with
    events := State.reset.events.put 1 { Event.reset with
      state := .scheduled, service := 3, s := some 18000000000, nominal := 10000 }
    sched := State.reset.sched.put 3 [1] }
def timed : EventImg := { event0 with trigger := 0, s := some 20001001, duration := some (2 ^ 34) }
theorem witness_EventWriteLoads :
    (scheduled.event 9).state = .free ∧ event0.state = 1 ∧ event0.service = (3 : SvcId).val ∧
      (scheduled.svc 3).state ≠ .off ∧ event0.clips = [(5 : ClipId)].map Fin.val ∧ event0.clipCount = 1 ∧
      (∀ c ∈ [(5 : ClipId)], (scheduled.clip c).state = .loaded) ∧ event0.duration = some 10000 ∧ event0.trigger = 1 ∧
      timed.trigger = 0 ∧ timed.s = some 20001001 ∧ (scheduled.svc 3).lastPs = some 1000 ∧
      (20001001 : Stamp) ≠ 1000 + BitVec.ofNat 36 (scheduled.svc 3).cfg.preroll ∧
      ((20001001 : Stamp) - (1000 + BitVec.ofNat 36 (scheduled.svc 3).cfg.preroll)).toNat < 2 ^ 35 ∧
      ((20001001 : Stamp) - 1000).toNat ≤ 2 ^ 34 ∧ scheduled.list 3 = [1] ∧
      (scheduled.event 1).s = some 18000000000 ∧
      ((20001001 : Stamp) - 1000).toInt + ((2 ^ 34 + 5000000 + 5000000 : Nat) : Int) ≤
        ((18000000000 : Stamp) - 1000).toInt := by decide +kernel
/-- A clip that fills its window, in a window of the least length. -/
def full : ClipImg := { clip0 with offset := 1048320, length := 4096, trim := -16384 }
theorem witness_ClipAndWindowWritesStore :
    (loaded.clip 6).state = .free ∧ full.window = (2 : WindowId).val ∧ full.offset % 256 = 0 ∧
      full.offset < (loaded.window 2).length ∧ full.length * 256 ≤ (loaded.window 2).length ∧
      (full.cEnd - full.c0).toNat < 2 ^ 35 ∧ (∀ e, (loaded.event e).state = .free) ∧
      (∀ k, (loaded.slot k).owner = none) ∧ ((owning (.loss 3) (fetch6 0 none 0)).slot 6).owner.isSome ∧
      ((owning (.loss 3) (fetch6 0 none 0)).slot 6).clips = .looped 5 ∧
      top.cls ≤ (loaded.window 2).guard ∧ window0.length = 2 ^ 20 ∧ window0.base % window0.length = 0 ∧
      window0.base + window0.length ≤ 2 ^ 36 ∧
      (∀ c, (loaded.clip c).state = .loaded → (loaded.clip c).offset < window0.length ∧
        (loaded.clip c).length * 256 ≤ window0.length) := by decide +kernel
theorem witness_AlertAndCounterWritesStore :
    top.cls ≤ (loaded.alert 7).guard ∧ (alive.alert 2).state ≠ .idle ∧ (loaded.alert 7).state = .idle ∧
      alert0.group ≠ 0 ∧ alert0.clip = (5 : ClipId).val ∧ (loaded.clip 5).state = .loaded ∧
      (∀ b, b ≠ (0 : AlertId) → (loaded.alert b).priority ≠ some 0) ∧ (loaded.counter 1).running = false ∧
      (edged.counter 4).running = true ∧ (⟨4, 0⟩ : Form) = ClockSource.expiry.form ∧ (1 : CounterId) ≠ 0 ∧
      (⟨2, 7⟩ : Form) = Gate.form (.lineLow 7) ∧ (⟨3, 7⟩ : Form) = Target.form (.alertRenew 7) := by decide +kernel
theorem witness_SettingsWritesStore :
    low.cls ≤ (State.reset.line 2).guard ∧ 1 = Direction.output.code ∧ 3 = EdgeSelect.both.code ∧
      (⟨4, 0⟩ : Form) = Tally.anyAlert.form ∧ (State.reset.line 2).direction = .input ∧ top.cls = 0 ∧
      channel0.inTag ≤ 4094 ∧ channel0.enabled = false ∧ allotted State.reset 0 + 1 ≤ 16 ∧ low.cls ≠ 0 := by
  decide +kernel
/-- Event 1 SCHEDULED on service 3, its lane UP. -/
def cued (x : SvcState) : State :=
  ((tracked.modSvc 3 (fun y => { y with state := x })).setClip 0 { Clip.reset with state := .loaded }).modEvent 1
    (fun y => { y with state := .scheduled, service := 3, s := some 5 })
/-- Counter 14 at its last count with the given target. -/
def firing (x : Target) (s : State) : State :=
  { s.modCounter 14 (fun y => { y with running := true, reload := 7, count := 1, target := x }) with due := [.clock 14] }
theorem witness_ExpiryFiresAndPassesOn_event (x : SvcState) (hx : x = .network ∨ x = .alert ∨ x = .inserting) :
    let s := firing (.event 1) (cued x)
    Settled s ∧ Due.clock 14 ∈ s.due ∧ (s.counter 14).count = 1 ∧ (s.event 1).state = .scheduled ∧
      (s.counter 15).source ≠ .expiry := by
  refine ⟨settled_of ?_ ?_ ?_, ?_⟩ <;> rcases hx with rfl | rfl | rfl <;> decide +kernel
theorem witness_ExpiryFiresAndPassesOn_alert :
    let s := firing (.alertOn 2) armed
    Settled s ∧ Due.clock 14 ∈ s.due ∧ (s.counter 14).count = 1 ∧ (s.alert 2).state = .idle ∧
      (s.alert 2).masked = false ∧ (s.alert 2).priority.isSome ∧ (s.counter 15).source ≠ .expiry := by
  refine ⟨settled_of ?_ ?_ ?_, ?_⟩ <;> decide +kernel
theorem witness_SpliceNowCues :
    ((cued .network).event 1).service = 3 ∧ top.cls ≤ ((cued .network).event 1).guard ∧
      ((cued .network).event 1).state = .scheduled ∧
      (∀ c ∈ ((cued .network).event 1).clips, ((cued .network).clip c).state = .loaded) ∧
      ((cued .network).svc 3).state = .network ∧ (cued .network).laneUp 3 = true ∧
      ((cued .network).slot 0).owner = none ∧ ((cued .alert).svc 3).state = .alert ∧
      ((cued .inserting).svc 3).state = .inserting ∧ (State.reset.event 1).state ≠ .scheduled ∧
      (((cued .network).modEvent 1 (fun y => { y with guard := 0 })).event 1).guard < low.cls := by decide +kernel
theorem witness_CancelCloses :
    ((cued .network).event 1).state = .scheduled ∧ (breaking.event 9).state = .active ∧
      (breaking.event 9).outcome ≠ some .cancelled ∧ (breaking.event 9).slot = some 6 ∧
      (breaking.event 9).service = 3 ∧ (breaking.svc 3).state = .inserting ∧ (breaking.slot 6).fetchEnd = .none ∧
      (State.reset.event 9).state = .free := by decide +kernel
/-- The CUEING event of `exiting` with its slot as given, and the port. -/
def cueingOf (k : Option SlotId) (p : Port → Port) : State := (exiting.modEvent 9 (fun x => { x with slot := k })).modPort p
/-- A fetch for slot 4 at the start of a burst. -/
def fetch4 (burst : Nat) : Fetch := { fetch6 burst none 0 with slot := 4 }
/-- The port as it moves a cell for slot 4, or waits to resume it. -/
def moving (burst : Nat) (wait : Bool) : State :=
  cueingOf (some 4) (fun p => { p with
    phase := if wait then .requesting else .owner, resume := wait, fetch := some (fetch4 burst), tenure := 4 })
theorem witness_CancelCloses_cueing (burst : Nat) (wait : Bool) (hb : burst = 0 ∨ burst = 1) :
    let s := moving burst wait
    let u := cueingOf none id
    (s.event 9).state = .cueing ∧ (s.event 9).service = 3 ∧ (s.event 9).slot = some 4 ∧ (s.slot 4).readers = [] ∧
      s.waitList = [] ∧ s.port.fetch = some (fetch4 burst) ∧ (fetch4 burst).slot = 4 ∧ s.port.abandon = false ∧
      s.port.resume = wait ∧ (s.port.phase = .owner ↔ wait = false) ∧ s.port.tenureLimit ≤ s.port.tenure ∧
      1 ≤ s.port.gap ∧ (fetch4 burst).beat = none ∧ (fetch4 burst).retry = 0 ∧
      (u.event 9).state = .cueing ∧ (u.event 9).slot = none ∧ (cueingOf (some 4) id).port.fetch = none := by
  rcases hb with rfl | rfl <;> cases wait <;> decide +kernel
theorem test_release_of_a_slot_at_the_port :
    (ran (.cancel top 9) (moving 0 false)).port.abandon = true ∧
      (ran (.cancel top 9) (moving 1 true)).port.fetch = none ∧ (ran (.cancel top 9) (moving 1 true)).port.resume = false := by
  decide +kernel
def logged (g : Fin 4) : State :=
  { State.reset.modEvent 9 (fun y => { y with state := .completed, service := 3, guard := g }) with
    log := [entryOf 9 { Event.reset with state := .completed, service := 3 } .completed 77] }
theorem witness_TakeLogFreesTheRecord :
    State.reset.log = [] ∧ (logged 0).log.map LogEntry.event = [9] ∧ ((logged 0).event 9).guard < low.cls ∧
      low.cls ≤ ((logged 1).event 9).guard ∧ 48 ≤ low.room ∧ (⟨0, 1, 47⟩ : Ctx).room < 48 := by decide +kernel
theorem witness_ClearTouchesTheNamedItems :
    low.cls ≤ (State.reset.svc 3).cfg.guard ∧ (31 : Byte).toNat < 32 ∧ (31 : Byte) ≠ 0 ∧ (7 : Byte).toNat < 8 ∧
      32 ≤ (32 : Byte).toNat ∧ low.cls ≤ (State.reset.alert 2).guard ∧ top.cls = 0 := by decide +kernel
/-- A guard below the class and one at it, masks at the ends of the items, and an index at each table's end. -/
theorem witness_ClearTouchesTheNamedItems_refused :
    ((State.reset.modSvc 3 (fun x => { x with cfg := { x.cfg with guard := 0 } })).svc 3).cfg.guard < low.cls ∧
      ((State.reset.modAlert 2 (fun x => { x with guard := 0 })).alert 2).guard < low.cls ∧
      ((State.reset.modRoute 1 (fun x => { x with guard := 0 })).route 1).guard < low.cls ∧
      low.cls ≤ (State.reset.route 1).guard ∧ low.cls ≠ 0 ∧ 8 ≤ (8 : Byte).toNat ∧ (2 : Byte) ≠ 1 ∧
      511 < Table.clip.entries State.reset ∧ Table.clip.entries State.reset ≤ 512 ∧
      Table.log.entries State.reset ≤ 0 ∧ 0 < Table.log.entries (logged 0) := by decide +kernel
theorem witness_RestartKeepsTheTables :
    top.cls = 0 ∧ low.cls ≠ 0 ∧ (breaking.event 9).state = .active ∧ (exiting.event 9).state = .cueing := by
  decide +kernel
/-- A port between two bursts and one before its first answer, and a line of each direction. -/
theorem witness_RestartKeepsTheTables_port :
    BetweenTransfers (owning (.loss 3) (fetch6 1 none 0)) ∧ ¬BetweenTransfers (owning (.loss 3) (fetch6 0 none 0)) ∧
      (State.reset.line 0).direction = .input ∧
      ((State.reset.modLine 6 (fun x => { x with direction := .output })).line 6).direction ≠ .input := by
  refine ⟨⟨by decide +kernel, by decide +kernel, fetch6 1 none 0, by decide +kernel, by decide +kernel⟩, ?_,
    by decide +kernel⟩
  rintro ⟨-, -, f, hf, h⟩
  have : fetch6 0 none 0 = f := Option.some.inj hf
  subst this
  revert h
  decide +kernel
theorem witness_StickyFlagsStaySet :
    mayClear (.inlaneWrite top 0 5) = false ∧ ∃ t, exec (.inlaneWrite top 0 5) lit = .next t := ⟨rfl, ⟨_, rfl⟩⟩

/-! ### One step of the commands -/

theorem test_tick : let t := ran (.stationTick 0) { quiet with now := 9 }
    t.now = 10 ∧ t.windowStart = 10 ∧ t.due = [.window 0, .window 1] := by decide +kernel
theorem test_debounce_edge : let t := ran (.debounceEdge 2) edged
    (t.line 2).debounced = .low ∧ (t.counter 4).count = 1 ∧ (t.counter 5).count = 2 := by decide +kernel
/-- A cell whose records turn line 6 to OUT HIGH, LOW and HIGH, clock counter 4 by the LOW edge that its gate admits, stop
and start it: the expiry comes with its record, and the READ after them finds the count reloaded. -/
def cuelineRecord (level : Byte) : List Byte := [1, 8, 0, 6, 8, 1, 3, 0, level, 0, 0, 0, 3]
def edgeCell : List Byte :=
  controlFrame 4080 ([0, 1, 0, 5] ++ cuelineRecord 1 ++ cuelineRecord 0 ++ cuelineRecord 1 ++ [11, 7, 0, 4, 0] ++
    [10, 7, 0, 4, 0])
def watched : State :=
  (lit.modCounter 4 (fun x => { x with
    source := .edges 6, running := true, count := 1, reload := 9, gate := .lineLow 6, target := .event 1 })).modEvent 1
    (fun x => { x with state := .scheduled, service := 3 })
theorem test_record_takes_its_expiry :
    let t := ran .controlCellExecute (ran (.cellArrival 0 edgeCell) watched)
    t.due = [] ∧ (t.counter 4).running = true ∧ (t.counter 4).count = 9 ∧ (t.event 1).state = .missed := by
  decide +kernel
/-- A tick's station millisecond that waits for the gate's edge is gone with the STOP: the next tick counts no
millisecond of a counter that clocks edges by then. -/
theorem test_stop_drops_what_waits :
    let t := ran (.counterStart top 4) (ran (.counterWrite top 4 { counter0 with
      source := ⟨3, 6⟩, reload := 5, guard := 3 }) (ran (.counterStop top 4) (ran (.stationTick 0xF8)
      (timing (.lineLow 2) 2))))
    (ran (.stationTick 0xF8) (timing (.lineLow 2) 2)).due.contains (.pulse 4) = true ∧
      (t.counter 4).source = .edges 6 ∧ ((ran (.stationTick 0xF8) t).counter 4).count = 5 := by decide +kernel
/-- A second event that waits behind the one that stops a ONE_SHOT counter is gone too. -/
theorem test_one_shot_drops_what_waits :
    let t := ran (.counterStart top 14) (ran (.counterExpiry 14) { expiring .nothing false .idle with
      due := [.clock 14, .clock 14] })
    t.due = [] ∧ ((ran (.counterExpiry 14) t).counter 14).count = 7 := by decide +kernel
theorem test_cascade : let t := ran (.counterExpiry 14) (expiring .nothing true .idle)
    (t.counter 14).running = false ∧ (t.counter 15).count = 1 := by decide +kernel
theorem test_exit : let t := ran (.cellArrival 0 (splice 5000000)) exiting
    (t.svc 3).state = .inserting ∧ (t.svc 3).base = 5000000 ∧ (t.event 9).tr = some 35000000 ∧
      (t.slot 4).readers = [⟨3, 0, .none⟩] := by decide +kernel
theorem test_return : let t := ran (.cellArrival 0 (splice 5000000)) back
    (t.svc 3).state = .network ∧ (t.event 9).state = .completed ∧ t.log.length = 1 ∧
      (t.outLane 0).fifo.length = 1 := by decide +kernel
theorem test_shed_level_rises : ((ran (.windowStart 0) windowed).svc 3).shedLevel = 1 := by decide +kernel
theorem test_inserted_stamp : ((ran (.outputPosition 0) (filling none)).outLane 0).out.map Cell.rs = some (some 1050) := by
  decide +kernel
theorem test_back_off : let t := ran .backOff (owning (.loss 3) (fetch6 3 (some 1) 2))
    t.port.phase = .releasing ∧ t.port.buffer.length = 96 ∧ t.port.fetch = some (fetch6 3 none 2) := by decide +kernel
theorem test_unreadable_clip_faults : let t := ran (.busGrant false) { requesting none with clips := State.reset.clips }
    t.storeFaultSeen = true ∧ (t.slot 6).faults + (t.slot 3).faults = 4 ∧ t.port.phase = .releasing := by decide +kernel
theorem test_alert_takes_service : let t := ran (.alertOn top 2) armed
    (t.svc 3).state = .alert ∧ (t.svc 3).owner = some 2 ∧ (t.slot 0).readers = [⟨3, 0, .join⟩] := by decide +kernel
theorem test_alert_end_returns_service : let t := ran (.alertOff top 2) (ran (.alertOn top 2) armed)
    (t.svc 3).state = .returning ∧ (t.svc 3).kind = some .alert ∧ (t.slot 0).owner = none := by decide +kernel
theorem test_lane_loss_is_dark : ((ran (.laneLoss 0) losing).svc 3).dark = true := by decide +kernel
theorem test_read_service : (ran (.read top 1 63 [255]) State.reset).lastResult.map
    (fun r => (r.code, r.count, r.data.length)) = some (.badIndex, 1, 80) := by decide +kernel
theorem test_event_list : (ran (.eventWrite top 9 timed) scheduled).list 3 = [9, 1] := by decide +kernel
theorem test_restart : let t := ran (.restart top 0) breaking
    (t.event 9).state = .cancelled ∧ (t.svc 3).state = .network := by decide +kernel
/-- A first burst under way is completed; between two bursts the tenure may end at once. -/
theorem test_restart_of_the_port :
    let t := ran (.restart top 0) (owning (.loss 3) (fetch6 0 none 0))
    let u := restartStorePort (owning (.loss 3) (fetch6 1 none 0))
    t.port.phase = .owner ∧ t.port.fetch = none ∧ u.port.fetch = none ∧
      (u.port.phase = .owner ∨ (u.port.phase = .releasing ∧ u.port.gapCount = 2)) := by
  refine ⟨by decide +kernel, by decide +kernel, ?_⟩
  rcases restartStorePort_cases (owning (.loss 3) (fetch6 1 none 0)) with ⟨-, e⟩ | ⟨-, -, -, e | e⟩ <;> rw [e] <;>
    decide +kernel

end Sys2Proof.Tests
end

section
/-!
PROOFS. TAKE_LOG (R64): what it answers in each of its cases, and what it leaves.
-/
namespace Sys2Proof.Machine

/-- R179: a guard below the class refuses it. -/
theorem allowed_eq_false {c g : Fin 4} (h : g < c) : allowed c g = false := by simp [allowed, h]

/-- R179: a guard at the class or above admits it. -/
theorem allowed_eq_true {c g : Fin 4} (h : c ≤ g) : allowed c g = true := by simp [allowed, h]

/-- The command is the operation with its result kept; no index reaches the operation (R180). -/
theorem exec_takeLog (x : Ctx) (i : Nat) (s : State) : exec (.takeLog x i) s = .next (record (doTakeLog x s)) := rfl

theorem doTakeLog_empty (x : Ctx) {s : State} (h : s.log = []) : doTakeLog x s = (s, Code.ok.only) := by
  simp [doTakeLog, h]

section
variable {x : Ctx} {s : State} {y : LogEntry} {rest : List LogEntry}

/-- With an entry at hand, the guard is checked before the room. -/
theorem doTakeLog_cons (x : Ctx) (h : s.log = y :: rest) :
    doTakeLog x s =
      refuseIf (!allowed x.cls (s.event y.event).guard) .guarded s
        (refuseIf (decide (x.room < 48)) .full s
          ({ s.modEvent y.event (fun _ => Event.reset) with log := rest }, ⟨.ok, 1, logImage y⟩)) := by
  simp [doTakeLog, h]

theorem doTakeLog_guarded (h : s.log = y :: rest) (hg : (s.event y.event).guard < x.cls) :
    doTakeLog x s = (s, Code.guarded.only) := by
  simp [doTakeLog_cons x h, allowed_eq_false hg]

theorem doTakeLog_full (h : s.log = y :: rest) (hg : x.cls ≤ (s.event y.event).guard) (hr : x.room < 48) :
    doTakeLog x s = (s, Code.full.only) := by
  simp [doTakeLog_cons x h, allowed_eq_true hg, hr]

theorem doTakeLog_taken (h : s.log = y :: rest) (hg : x.cls ≤ (s.event y.event).guard) (hr : 48 ≤ x.room) :
    doTakeLog x s =
      ({ s.modEvent y.event (fun _ => Event.reset) with log := rest }, ⟨.ok, 1, logImage y⟩) := by
  simp [doTakeLog_cons x h, allowed_eq_true hg, Nat.not_lt.2 hr]

end

/-- A refusal, or an OK without data, leaves its code as the result and changes nothing else. -/
theorem record_only (s : State) (c : Code) : record (s, c.only) = s.codeAnswered c := rfl

/-- Settles O57, by the four answers of `doTakeLog`: empty log, GUARDED, FULL, and the entry taken. The freed
record is the FREE event of R44, written out in the statement. -/
theorem takeLogFreesTheRecord : Obligations.TakeLogFreesTheRecord := by
  intro x i s
  rw [exec_takeLog]
  refine ⟨fun h => ?empty, fun y rest h => ⟨fun hg => ?guarded, fun hg hr => ?full, fun hg hr => ?taken⟩⟩
  case empty => rw [doTakeLog_empty x h, record_only]
  case guarded => rw [doTakeLog_guarded h hg, record_only]
  case full => rw [doTakeLog_full h hg hr, record_only]
  case taken =>
    rw [doTakeLog_taken h hg hr, record_mk]
    rfl

end Sys2Proof.Machine
end

section
/-!
PROOFS. The trim and the feed position of one stamp (R67, R69, R72): the sign of the product decides the sign of the
correction, a division of magnitudes decides its size, and the stray limit decides which mark the stamp takes.
-/
namespace Sys2Proof.Machine

section
variable {e trim : Int}

theorem trimOf_of_nonneg (h : 0 ≤ e * trim) :
    trimOf e trim = (((2 * (e * trim).natAbs + 2 ^ 24) / 2 ^ 25 : Nat) : Int) := by
  simp [trimOf, Int.not_lt.2 h]

theorem trimOf_of_neg (h : e * trim < 0) :
    trimOf e trim = -(((2 * (e * trim).natAbs + 2 ^ 24) / 2 ^ 25 : Nat) : Int) := by
  simp [trimOf, h]

end

/-- A correction at or above zero may exceed its quotient by a whole half but falls short of it by less: a tie goes
up. Both sides are scaled by 2^25. -/
theorem trimOf_bounds_of_nonneg {e trim : Int} (h : 0 ≤ e * trim) :
    -2 ^ 24 < 2 * (trimOf e trim * 2 ^ 24 - e * trim) ∧ 2 * (trimOf e trim * 2 ^ 24 - e * trim) ≤ 2 ^ 24 := by
  rw [trimOf_of_nonneg h]
  omega

/-- The mirror image below zero: a tie goes down. -/
theorem trimOf_bounds_of_neg {e trim : Int} (h : e * trim < 0) :
    -2 ^ 24 ≤ 2 * (trimOf e trim * 2 ^ 24 - e * trim) ∧ 2 * (trimOf e trim * 2 ^ 24 - e * trim) < 2 ^ 24 := by
  rw [trimOf_of_neg h]
  omega

/-- R69: no whole number is nearer to the quotient than the correction. -/
theorem trimOf_nearest (e trim : Int) : 2 * (trimOf e trim * 2 ^ 24 - e * trim).natAbs ≤ 2 ^ 24 := by
  rcases lt_or_ge (e * trim) 0 with neg | nonneg
  · have bounds := trimOf_bounds_of_neg neg
    omega
  · have bounds := trimOf_bounds_of_nonneg nonneg
    omega

/-- R69: at a tie the one bound that is strict leaves only the whole number farther from zero. -/
theorem trimOf_tie_away_from_zero {e trim : Int}
    (tie : 2 * (trimOf e trim * 2 ^ 24 - e * trim).natAbs = 2 ^ 24) :
    (e * trim).natAbs < (trimOf e trim * 2 ^ 24).natAbs := by
  rcases lt_or_ge (e * trim) 0 with neg | nonneg
  · have bounds := trimOf_bounds_of_neg neg
    omega
  · have bounds := trimOf_bounds_of_nonneg nonneg
    omega

@[simp] theorem convert_none (c : Clip) (f : Stamp) : convert c f none = .absent := rfl

section
variable {c : Clip} {x : Stamp}

/-- R67: beyond the limit the stamp has no feed position. -/
theorem convert_stray (f : Stamp) (h : elapsed c x < -16777216) : convert c f (some x) = .stray := by
  simp [convert, isStray, h]

/-- R72: at the limit or after it, it has one. -/
theorem convert_pos (f : Stamp) (h : -16777216 ≤ elapsed c x) :
    convert c f (some x) = .pos (f + signedTicks (corrected (elapsed c x) c.trim)) := by
  simp [convert, isStray, Int.not_lt.2 h]

end

/-- Settles O40. The rounding is by the sign of the product, the stamp's mark by the stray limit; the elapsed time in
the statement is the model's `elapsed` written out. -/
theorem trimIsRoundedToNearest : Obligations.TrimIsRoundedToNearest :=
  ⟨fun e trim => ⟨rfl, trimOf_nearest e trim, trimOf_tie_away_from_zero⟩,
    fun c f _ => ⟨convert_stray f, convert_pos f, convert_none c f⟩⟩

end Sys2Proof.Machine
end

section
/-!
PROOFS. Faults and recovery of an alert channel (R152, R153): the record that a skipped fault and a written cell leave
on a live channel, one rule per case.
-/
namespace Sys2Proof.Machine

section
variable {a : AlertId} {s : State}

/-- R152: below four faults, or on a channel already STALLED, the fault is only counted. -/
theorem alertFault_counts (live : (s.alert a).state ≠ .idle)
    (h : ¬((s.alert a).state = .active ∧ 4 ≤ sat16 (s.alert a).faults)) :
    alertFault a s = s.modAlert a (fun x => { x with faults := sat16 x.faults }) := by
  simp [alertFault, State.modAlert, live, h]

/-- R152: the fault that brings an ACTIVE channel's count to four stalls it. -/
theorem alertFault_stalls (active : (s.alert a).state = .active) (reached : 4 ≤ sat16 (s.alert a).faults) :
    alertFault a s =
      s.modAlert a (fun x => { x with faults := sat16 x.faults, state := .stalled, stallSeen := true }) := by
  simp [alertFault, State.modAlert, active, reached]

/-- R153: a written cell makes a live channel ACTIVE with no faults, STALLED or not before. -/
theorem alertWritten_recovers (live : (s.alert a).state ≠ .idle) :
    alertWritten a s = s.modAlert a (fun x => { x with faults := 0, state := .active }) := by
  simp [alertWritten, State.modAlert, live]

end

/-- Settles O46, by whether the fault stalls the channel (`alertFault_stalls`) or is only counted
(`alertFault_counts`); the written cell is `alertWritten_recovers`. -/
theorem faultsStallAndCellsRecover : Obligations.FaultsStallAndCellsRecover := by
  rintro a s _ rfl live
  refine ⟨?fault, alertWritten_recovers live⟩
  case fault =>
    by_cases stalls : (s.alert a).state = .active ∧ 4 ≤ min ((s.alert a).faults + 1) 65535
    · obtain ⟨active, reached⟩ := stalls
      rw [alertFault_stalls active reached, if_pos ⟨active, reached⟩, if_pos ⟨active, reached⟩]
      rfl
    · rw [alertFault_counts live stalls, if_neg stalls, if_neg stalls]
      rfl

end Sys2Proof.Machine
end

section
/-!
PROOFS. The laws of the whole part as one relation between two states: `Lawful` holds from a state to any state that an
operation makes of it. A change of one record keeps the laws by a relation on that record alone.
-/
namespace Sys2Proof.Machine
set_option Elab.async false

/-! ### What a record may become -/

/-- The clamped settings of a service's configuration lie in their ranges (R21). -/
def CfgInRange (c : SvcConfig) : Prop :=
  c.exitWindow ≤ 50000000 ∧ c.returnWindow ≤ 50000000 ∧ c.seamTolerance ≤ 10000000 ∧ c.leadLimit ≤ 5000000 ∧
    c.lateLimit ≤ 5000000

/-- The store port's settings lie in their ranges (R108). -/
def PortInRange (p : Port) : Prop :=
  1 ≤ p.tenureLimit ∧ p.tenureLimit ≤ 8 ∧ p.gap ≤ 15 ∧ 1 ≤ p.dutyLimit ∧ p.dutyLimit ≤ 255

/-- A counter's reload, and its count while it is RUNNING, lie in their ranges (R162, R163). -/
def CounterInRange (x : Counter) : Prop :=
  1 ≤ x.reload ∧ x.reload ≤ 65535 ∧ (x.running = true → 1 ≤ x.count ∧ x.count ≤ x.reload)

/-- The cells that a slot holds or has in flight (R95, R103). -/
def Slot.load (x : Slot) : Nat := x.ring.length + x.inFlight.isSome.toNat

/-- An IDLE channel has neither a deadline nor a slot (section 8.1). -/
def Alert.bare (x : Alert) : Prop := x.state = .idle → x.deadline = none ∧ x.slot = none

structure InLaneStep (x y : InLane) : Prop where
  timeout : 10 ≤ x.timeout ∧ x.timeout ≤ 1000 → 10 ≤ y.timeout ∧ y.timeout ≤ 1000 := by exact id
  unrouted : x.unrouted ≤ 65535 → y.unrouted ≤ 65535 := by exact id

/-- A route that keeps its binding and its allotment. -/
structure RouteStep (x y : Route) : Prop where
  state : y.state = x.state := by exact rfl
  inLane : y.inLane = x.inLane := by exact rfl
  inTag : y.inTag = x.inTag := by exact rfl
  outLane : y.outLane = x.outLane := by exact rfl
  outTag : y.outTag = x.outTag := by exact rfl
  service : y.service = x.service := by exact rfl
  allotment : y.allotment = x.allotment := by exact rfl
  overflow : x.overflow ≤ 65535 → y.overflow ≤ 65535 := by exact id

structure SvcStep (x y : Service) : Prop where
  cfg : CfgInRange x.cfg → CfgInRange y.cfg := by exact id
  shedLevel : x.shedLevel ≤ 7 → y.shedLevel ≤ 7 := by exact id
  shedPattern : x.shedPattern ≤ 7 → y.shedPattern ≤ 7 := by exact id
  strayCount : x.strayCount ≤ 65535 → y.strayCount ≤ 65535 := by exact id
  slipCount : x.slipCount ≤ 65535 → y.slipCount ≤ 65535 := by exact id
  straySeen : x.straySeen = true → y.straySeen = true := by exact id
  slipped : x.slipped = true → y.slipped = true := by exact id
  dark : x.dark = true → y.dark = true := by exact id

structure SlotStep (x y : Slot) : Prop where
  load : x.load ≤ 32 → y.load ≤ 32 := by exact id
  faults : x.faults ≤ 65535 → y.faults ≤ 65535 := by exact id

structure OutLaneStep (x y : OutLane) : Prop where
  capacity : y.capacity = x.capacity := by exact rfl
  fifo : x.fifo.length ≤ 256 → y.fifo.length ≤ 256 := by exact id
  overflow : x.overflow ≤ 65535 → y.overflow ≤ 65535 := by exact id

structure AlertStep (x y : Alert) : Prop where
  bare : x.bare → y.bare := by exact id
  faults : x.faults ≤ 65535 → y.faults ≤ 65535 := by exact id
  lapsed : x.lapsed = true → y.lapsed = true := by exact id
  stallSeen : x.stallSeen = true → y.stallSeen = true := by exact id
  blocked : x.blocked = true → y.blocked = true := by exact id

/-- A channel that keeps its pairs. -/
structure ChannelKept (x y : Channel) : Prop where
  enabled : y.enabled = x.enabled := by exact rfl
  inLane : y.inLane = x.inLane := by exact rfl
  inTag : y.inTag = x.inTag := by exact rfl
  respLane : y.respLane = x.respLane := by exact rfl
  respTag : y.respTag = x.respTag := by exact rfl
  overrun : x.overrun ≤ 65535 → y.overrun ≤ 65535 := by exact id

/-- A channel that keeps its pairs and gains no response. -/
structure ChannelStep (x y : Channel) : Prop extends ChannelKept x y where
  queue : y.queue.length ≤ x.queue.length := by exact le_refl _

theorem SvcStep.refl (x : Service) : SvcStep x x := {}
theorem SvcStep.trans {x y z : Service} (h : SvcStep x y) (k : SvcStep y z) : SvcStep x z where
  cfg := k.cfg ∘ h.cfg
  shedLevel := k.shedLevel ∘ h.shedLevel
  shedPattern := k.shedPattern ∘ h.shedPattern
  strayCount := k.strayCount ∘ h.strayCount
  slipCount := k.slipCount ∘ h.slipCount
  straySeen := k.straySeen ∘ h.straySeen
  slipped := k.slipped ∘ h.slipped
  dark := k.dark ∘ h.dark

/-! ### The laws from one state to another -/

/-- The response cells of a channel, those reserved for cells taken in among them (R173). -/
def responseCells (s : State) (h : ChannelId) : Nat := (s.channel h).queue.length + reserved s h

/-- What may be among the changes from one state to another: a CLEAR, and a response cell gained. -/
structure Leeway where
  clears : Bool
  responds : Bool

/-- From `s` to `t` every law but the bound of the response queues is kept; so are the sticky flags, unless the leeway
admits a CLEAR. -/
structure KeepsTables (b : Leeway) (s t : State) : Prop where
  streams : StreamsUnique s → StreamsUnique t := by exact id
  loading : LoadingLimit s → LoadingLimit t := by exact id
  fifos : FifosBounded s → FifosBounded t := by exact id
  rings : RingsBounded s → RingsBounded t := by exact id
  settings : SettingsInRange s → SettingsInRange t := by exact id
  shed : ShedLevelsInRange s → ShedLevelsInRange t := by exact id
  counts : CountsSaturate s → CountsSaturate t := by exact id
  counters : CountersInRange s → CountersInRange t := by exact id
  idle : IdleChannelsBare s → IdleChannelsBare t := by exact id
  flags : b.clears = false → FlagsKept s t

/-- From `s` to `t` every law is kept; and no channel gains a response cell, unless the leeway admits it. -/
structure Lawful (b : Leeway) (s t : State) : Prop extends KeepsTables b s t where
  queues : QueuesBounded s → QueuesBounded t := by exact id
  responses : b.responds = false → ∀ h, responseCells t h ≤ responseCells s h := by exact fun _ _ => le_refl _

theorem FlagsKept.refl (s : State) : FlagsKept s s :=
  ⟨fun _ => ⟨id, id, id⟩, fun _ => ⟨id, id, id⟩, id⟩

theorem FlagsKept.trans {s t u : State} (h : FlagsKept s t) (k : FlagsKept t u) : FlagsKept s u := by
  obtain ⟨hv, ha, hs⟩ := h
  obtain ⟨kv, ka, ks⟩ := k
  exact ⟨fun v => ⟨(kv v).1 ∘ (hv v).1, (kv v).2.1 ∘ (hv v).2.1, (kv v).2.2 ∘ (hv v).2.2⟩,
    fun a => ⟨(ka a).1 ∘ (ha a).1, (ka a).2.1 ∘ (ha a).2.1, (ka a).2.2 ∘ (ha a).2.2⟩, ks ∘ hs⟩

section
variable {b : Leeway} {s t u : State}

theorem Lawful.refl (s : State) : Lawful b s s where
  flags := fun _ => FlagsKept.refl s

theorem KeepsTables.trans (h : KeepsTables b s t) (k : KeepsTables b t u) : KeepsTables b s u where
  streams := k.streams ∘ h.streams
  loading := k.loading ∘ h.loading
  fifos := k.fifos ∘ h.fifos
  rings := k.rings ∘ h.rings
  settings := k.settings ∘ h.settings
  shed := k.shed ∘ h.shed
  counts := k.counts ∘ h.counts
  counters := k.counters ∘ h.counters
  idle := k.idle ∘ h.idle
  flags := fun e => (h.flags e).trans (k.flags e)

theorem Lawful.trans (h : Lawful b s t) (k : Lawful b t u) : Lawful b s u where
  toKeepsTables := h.toKeepsTables.trans k.toKeepsTables
  queues := k.queues ∘ h.queues
  responses := fun e i => (k.responses e i).trans (h.responses e i)

/-- What needs no leeway is lawful with any. -/
theorem Lawful.weaken (h : Lawful ⟨false, false⟩ s t) : Lawful b s t :=
  { h with responses := fun _ => h.responses rfl, flags := fun _ => h.flags rfl }

/-- A fold of lawful updates is lawful. -/
theorem Lawful.foldl {α : Type} {f : State → α → State} (h : ∀ s a, Lawful b s (f s a)) :
    ∀ (l : List α) (s : State), Lawful b s (l.foldl f s)
  | [], s => Lawful.refl s
  | a :: l, s => (h s a).trans (Lawful.foldl h l (f s a))

/-- No law speaks of the fields that change here. -/
theorem Lawful.rest {now ws : Ms} {ev : Tbl Event 256} {sc : Tbl (List EventId) 64} {lg : List LogEntry}
    {wi : Tbl Window 8} {cl : Tbl Clip 512} {wl : List Claimant} {dr : Nat} {lr : Option Result} {du : List Due}
    {pe : List Instr} :
    Lawful b s { s with now := now, windowStart := ws, events := ev, sched := sc, log := lg, windows := wi, clips := cl,
                        waitList := wl, draws := dr, lastResult := lr, due := du, pending := pe } where
  flags := fun _ => FlagsKept.refl s

end

/-! ### One table changed, entry by entry -/

/-- A search gives the indices in ascending order. -/
theorem Tbl.idxFrom_sorted {α : Type} {n : Nat} (p : Fin n → α → Bool) :
    ∀ (l : List α) (b : Nat) (h : b + l.length ≤ n), (Tbl.idxFrom p l b h).Pairwise (· < ·)
  | [], _, _ => .nil
  | a :: l, b, h => by
    have hl : b + 1 + l.length ≤ n := by simp only [List.length_cons] at h; omega
    have later := Tbl.idxFrom_sorted p l (b + 1) hl
    unfold Tbl.idxFrom
    dsimp only
    split
    · refine List.pairwise_cons.2 ⟨fun j hj => ?_, later⟩
      exact Fin.lt_def.2 ((Tbl.mem_idxFrom p l (b + 1) hl j).1 hj).1
    · exact later

/-- A search is the list of all indices, filtered. -/
theorem Tbl.indices_eq_filter {α : Type} {n : Nat} (t : Tbl α n) (p : Fin n → α → Bool) :
    t.indices p = (List.finRange n).filter (fun i => p i (t.get i)) := by
  have found : (t.indices p).Pairwise (· < ·) := Tbl.idxFrom_sorted p _ _ _
  have all : ((List.finRange n).filter (fun i => p i (t.get i))).Pairwise (· < ·) :=
    (List.pairwise_lt_finRange n).filter _
  refine List.Perm.eq_of_pairwise (fun a b _ _ h k => absurd (h.trans k) (lt_irrefl a)) found all ?_
  refine (List.perm_ext_iff_of_nodup (found.imp ne_of_lt) (all.imp ne_of_lt)).2 fun i => ?_
  simp [Tbl.mem_indices]

/-- Every entry of a table with one entry changed stands to the old one as the changed one does, if an unchanged entry
does. -/
theorem Tbl.rel_put {α : Type} {n : Nat} {R : α → α → Prop} (refl : ∀ x, R x x) {t : Tbl α n} {i : Fin n} {x : α}
    (h : R (t.get i) x) : ∀ j, R (t.get j) ((t.put i x).get j) := by
  intro j
  rw [Tbl.get_put]
  split
  · next e => subst e; exact h
  · exact refl _

/-- A fact of every entry of a table holds after a change of one entry, if the changed entry satisfies it. -/
theorem Tbl.forall_put {α : Type} {n : Nat} {P : α → Prop} {t : Tbl α n} {i : Fin n} {x : α} (h : P x)
    (hp : ∀ j, P (t.get j)) : ∀ j, P ((t.put i x).get j) := by
  intro j
  rw [Tbl.get_put]
  split
  · exact h
  · exact hp j

theorem sum_filter_eq {α : Type} (p : α → Bool) (f : α → Nat) (l : List α) :
    ((l.filter p).map f).sum = (l.map (fun i => if p i then f i else 0)).sum := by
  induction l with
  | nil => rfl
  | cons a l ih => cases h : p a <;> simp [h, ih]

/-- The allotted sum as a sum over all routes (R14, section 7.1). -/
theorem allottedBut_eq_sum (s : State) (n : OutLaneId) (skip : Option RouteId) :
    allottedBut s n skip =
      ∑ i : RouteId, if (s.route i).state = .active ∧ (s.route i).outLane = n ∧ some i ≠ skip
        then (s.route i).allotment else 0 := by
  unfold allottedBut
  rw [Tbl.indices_eq_filter, ← List.foldl_map (f := fun i => (s.route i).allotment) (g := (· + ·)),
    ← List.sum_eq_foldl, sum_filter_eq, Fin.sum_univ_def]
  exact congrArg List.sum (List.map_congr_left fun i _ => if_congr decide_eq_true_iff rfl rfl)

section
variable {b : Leeway} {s : State}

theorem inLanes_lawful {T : Tbl InLane 4} (h : ∀ i, InLaneStep (s.inLane i) (T.get i)) :
    Lawful b s { s with inLanes := T } where
  settings := fun ⟨hi, hr⟩ => ⟨fun i => (h i).timeout (hi i), hr⟩
  counts := fun ⟨hi, hr⟩ => ⟨fun i => (h i).unrouted (hi i), hr⟩
  flags := fun _ => FlagsKept.refl s

theorem routes_lawful {T : Tbl Route 256} (h : ∀ r, RouteStep (s.route r) (T.get r)) :
    Lawful b s { s with routes := T } where
  streams := fun ⟨hr, ha, hc⟩ => by
    refine ⟨fun i j => ?_, fun c i => ?_, hc⟩
    · have := hr i j
      simpa only [State.route, (h i).state, (h j).state, (h i).inLane, (h j).inLane, (h i).inTag, (h j).inTag,
        (h i).outLane, (h j).outLane, (h i).outTag, (h j).outTag, (h i).service, (h j).service] using this
    · have := ha c i
      simpa only [State.route, State.channel, (h i).state, (h i).outLane, (h i).outTag] using this
  loading := fun hl n => by
    have : allotted { s with routes := T } n = allotted s n := by
      simp only [allotted, allottedBut_eq_sum]
      refine Finset.sum_congr rfl fun i _ => if_congr ?_ (h i).allotment rfl
      exact and_congr (iff_of_eq (congrArg (· = _) (h i).state))
        (and_congr (iff_of_eq (congrArg (· = n) (h i).outLane)) Iff.rfl)
    rw [this]
    exact hl n
  counts := fun ⟨hi, hr, ho⟩ => ⟨hi, fun r => (h r).overflow (hr r), ho⟩
  flags := fun _ => FlagsKept.refl s

theorem services_lawful {T : Tbl Service 64} (h : ∀ v, SvcStep (s.svc v) (T.get v)) :
    Lawful b s { s with services := T } where
  settings := fun ⟨hi, hp, hl, hc⟩ => ⟨hi, hp, hl, fun v => (h v).cfg (hc v)⟩
  shed := fun hs v => ⟨(h v).shedLevel (hs v).1, (h v).shedPattern (hs v).2⟩
  counts := fun ⟨hi, hr, ho, hc, hv, hk⟩ =>
    ⟨hi, hr, ho, hc, fun v => ⟨(h v).strayCount (hv v).1, (h v).slipCount (hv v).2⟩, hk⟩
  flags := fun _ => ⟨fun v => ⟨(h v).straySeen, (h v).slipped, (h v).dark⟩, (FlagsKept.refl s).2⟩

theorem slots_lawful {T : Tbl Slot 16} (h : ∀ k, SlotStep (s.slot k) (T.get k)) :
    Lawful b s { s with slots := T } where
  rings := fun hr k => (h k).load (hr k)
  counts := fun ⟨hi, hr, ho, hc, hv, hk, ha⟩ => ⟨hi, hr, ho, hc, hv, fun k => (h k).faults (hk k), ha⟩
  flags := fun _ => FlagsKept.refl s

theorem outLanes_lawful {T : Tbl OutLane 2} (h : ∀ n, OutLaneStep (s.outLane n) (T.get n)) :
    Lawful b s { s with outLanes := T } where
  loading := fun hl n => by
    have e : (State.outLane { s with outLanes := T } n).capacity = (s.outLane n).capacity := (h n).capacity
    rw [e]
    exact hl n
  fifos := fun hf n => (h n).fifo (hf n)
  counts := fun ⟨hi, hr, ho, hc⟩ => ⟨hi, hr, fun n => (h n).overflow (ho n), hc⟩
  flags := fun _ => FlagsKept.refl s

theorem alerts_lawful {T : Tbl Alert 8} (h : ∀ a, AlertStep (s.alert a) (T.get a)) :
    Lawful b s { s with alerts := T } where
  counts := fun ⟨hi, hr, ho, hc, hv, hk, ha⟩ => ⟨hi, hr, ho, hc, hv, hk, fun a => (h a).faults (ha a)⟩
  idle := fun hb a => (h a).bare (hb a)
  flags := fun _ => ⟨(FlagsKept.refl s).1, fun a => ⟨(h a).lapsed, (h a).stallSeen, (h a).blocked⟩, id⟩

theorem lines_lawful {T : Tbl CueLine 8} (h : ∀ n, (s.line n).debounce ≤ 255 → (T.get n).debounce ≤ 255) :
    Lawful b s { s with lines := T } where
  settings := fun ⟨hi, hp, hl, hc⟩ => ⟨hi, hp, fun n => h n (hl n), hc⟩
  flags := fun _ => FlagsKept.refl s

theorem counters_lawful {T : Tbl Counter 16} (h : ∀ c, CounterInRange (s.counter c) → CounterInRange (T.get c)) :
    Lawful b s { s with counters := T } where
  counters := fun hc c => h c (hc c)
  flags := fun _ => FlagsKept.refl s

theorem channels_keep {T : Tbl Channel 4} (h : ∀ i, ChannelKept (s.channel i) (T.get i)) :
    KeepsTables b s { s with channels := T } where
  streams := fun ⟨hr, ha, hc⟩ => by
    refine ⟨hr, fun c i => ?_, fun c g => ?_⟩
    · have := ha c i
      simpa only [State.route, State.channel, (h c).enabled, (h c).respLane, (h c).respTag] using this
    · have := hc c g
      simpa only [State.channel, (h c).enabled, (h g).enabled, (h c).inLane, (h g).inLane, (h c).inTag, (h g).inTag,
        (h c).respLane, (h g).respLane, (h c).respTag, (h g).respTag] using this
  counts := fun ⟨hi, hr, ho, hc, hv⟩ => ⟨hi, hr, ho, fun i => (h i).overrun (hc i), hv⟩
  flags := fun _ => FlagsKept.refl s

theorem channels_lawful {T : Tbl Channel 4} (h : ∀ i, ChannelStep (s.channel i) (T.get i)) :
    Lawful b s { s with channels := T } where
  toKeepsTables := channels_keep fun i => (h i).toChannelKept
  queues := fun hq i => (Nat.add_le_add_right (h i).queue _).trans (hq i)
  responses := fun _ i => Nat.add_le_add_right (h i).queue _

/-! ### One record changed -/

variable {n : OutLaneId}

theorem modInLane_lawful {i : InLaneId} {f : InLane → InLane} (h : InLaneStep (s.inLane i) (f (s.inLane i))) :
    Lawful b s (s.modInLane i f) := inLanes_lawful (Tbl.rel_put (fun _ => {}) h)

theorem modRoute_lawful {i : RouteId} {f : Route → Route} (h : RouteStep (s.route i) (f (s.route i))) :
    Lawful b s (s.modRoute i f) := routes_lawful (Tbl.rel_put (fun _ => {}) h)

theorem modSvc_lawful {v : SvcId} {f : Service → Service} (h : SvcStep (s.svc v) (f (s.svc v))) :
    Lawful b s (s.modSvc v f) := services_lawful (Tbl.rel_put (fun _ => {}) h)

theorem modEvent_lawful {e : EventId} {f : Event → Event} : Lawful b s (s.modEvent e f) := Lawful.rest

theorem setList_lawful {v : SvcId} {l : List EventId} : Lawful b s (s.setList v l) := Lawful.rest

theorem modSlot_lawful {k : SlotId} {f : Slot → Slot} (h : SlotStep (s.slot k) (f (s.slot k))) :
    Lawful b s (s.modSlot k f) := slots_lawful (Tbl.rel_put (fun _ => {}) h)

theorem modOutLane_lawful {f : OutLane → OutLane} (h : OutLaneStep (s.outLane n) (f (s.outLane n))) :
    Lawful b s (s.modOutLane n f) := outLanes_lawful (Tbl.rel_put (fun _ => {}) h)

theorem modAlert_lawful {a : AlertId} {f : Alert → Alert} (h : AlertStep (s.alert a) (f (s.alert a))) :
    Lawful b s (s.modAlert a f) := alerts_lawful (Tbl.rel_put (fun _ => {}) h)

theorem modLine_lawful {i : LineId} {f : CueLine → CueLine}
    (h : (s.line i).debounce ≤ 255 → (f (s.line i)).debounce ≤ 255) : Lawful b s (s.modLine i f) :=
  lines_lawful (Tbl.rel_put (R := fun x y : CueLine => x.debounce ≤ 255 → y.debounce ≤ 255) (fun _ => id) h)

theorem modCounter_lawful {c : CounterId} {f : Counter → Counter}
    (h : CounterInRange (s.counter c) → CounterInRange (f (s.counter c))) : Lawful b s (s.modCounter c f) :=
  counters_lawful (Tbl.rel_put (R := fun x y => CounterInRange x → CounterInRange y) (fun _ => id) h)

theorem modChannel_lawful {i : ChannelId} {f : Channel → Channel}
    (h : ChannelStep (s.channel i) (f (s.channel i))) : Lawful b s (s.modChannel i f) :=
  channels_lawful (Tbl.rel_put (fun _ => {}) h)

theorem modPort_lawful {f : Port → Port} (h : PortInRange s.port → PortInRange (f s.port)) :
    Lawful b s (s.modPort f) where
  settings := fun ⟨hi, hp, hl⟩ => ⟨hi, h hp, hl⟩
  flags := fun _ => FlagsKept.refl s

/-- A change of the port that is not a change of its settings. -/
theorem port_lawful {p : Port} {d : Nat} (h : PortInRange s.port → PortInRange p) :
    Lawful b s { s with port := p, draws := d } where
  settings := fun ⟨hi, hp, hl⟩ => ⟨hi, h hp, hl⟩
  flags := fun _ => FlagsKept.refl s

theorem faultSeen_lawful : Lawful b s s.faultSeen where
  flags := fun _ => ⟨(FlagsKept.refl s).1, (FlagsKept.refl s).2.1, fun _ => rfl⟩

end
end Sys2Proof.Machine
end

section
/-!
PROOFS. The operations of the feeder, the network FIFOs, the schedule unit and the service engine are lawful.
-/
namespace Sys2Proof.Machine
set_option Elab.async false

section
variable {b : Leeway}

/-- An operation on a slot that may be absent. -/
theorem onSlot_lawful {f : SlotId → State → State} (h : ∀ k s, Lawful b s (f k s)) (k : Option SlotId) (s : State) :
    Lawful b s (onSlot k f s) := by
  cases k
  · exact Lawful.refl s
  · exact h _ s

/-- The log entries of one event of the part are the log's alone. -/
theorem oneEvent_lawful {f : State → State} {s : State} (h : Lawful b s (f s)) : Lawful b s (oneEvent f s) :=
  h.trans Lawful.rest

/-! ### The feeder -/

/-- A slot that holds no more than before. -/
theorem SlotStep.of_le {x y : Slot} (ring : y.ring.length ≤ x.ring.length) (inFlight : y.inFlight = x.inFlight)
    (faults : y.faults = x.faults) : SlotStep x y where
  load := fun h => by
    unfold Slot.load at h ⊢
    rw [inFlight]
    omega
  faults := fun h => faults ▸ h

theorem moveTail_step (x : Slot) : SlotStep x x.moveTail :=
  SlotStep.of_le (by simp [Slot.moveTail]) rfl rfl

theorem reset_step (x : Slot) : SlotStep x Slot.reset where
  load := fun _ => by decide
  faults := fun _ => by decide

theorem claimedSlot_step (x : Slot) (o : Owner) (s : State) : SlotStep x (claimedSlot s o) where
  load := fun _ => (reset_step x).load (by assumption)
  faults := fun _ => by simp [claimedSlot, Slot.reset]

theorem takeBase_lawful (x : Slot) (s : State) (r : Reader) : Lawful b s (takeBase x s r) := by
  unfold takeBase
  split
  · split
    · exact modSvc_lawful {}
    · exact Lawful.refl s
  · exact Lawful.refl s

theorem seekReaders_lawful (k : SlotId) (s : State) : Lawful b s (seekReaders k s) := by
  unfold seekReaders
  exact (Lawful.foldl (takeBase_lawful _) _ s).trans (modSlot_lawful {})

theorem noteSlip_lawful (s : State) (r : Reader) : Lawful b s (noteSlip s r) := by
  unfold noteSlip
  split
  · exact Lawful.refl s
  · exact modSvc_lawful { slipCount := fun _ => by simp [sat16], slipped := fun _ => rfl }

theorem slipReaders_lawful (k : SlotId) (s : State) : Lawful b s (slipReaders k s) := by
  unfold slipReaders
  dsimp only
  split
  · exact (Lawful.foldl noteSlip_lawful _ s).trans (modSlot_lawful (SlotStep.of_le (by simp [Slot.moveTail]) rfl rfl))
  · exact Lawful.refl s

theorem settleRing_lawful (k : SlotId) (s : State) : Lawful b s (settleRing k s) := by
  have moved (s : State) : Lawful b s ((seekReaders k s).modSlot k Slot.moveTail) :=
    (seekReaders_lawful k s).trans (modSlot_lawful (moveTail_step _))
  exact ((moved s).trans (slipReaders_lawful k _)).trans (moved _)

theorem attach_lawful (k : SlotId) (v : SvcId) (pos : Seq) (seek : Seek) (s : State) :
    Lawful b s (attach k v pos seek s) :=
  (modSlot_lawful {}).trans (modSvc_lawful
    { shedLevel := fun _ => Nat.zero_le _, shedPattern := fun _ => Nat.zero_le _ })

theorem attachJoin_lawful (k : SlotId) (v : SvcId) (s : State) : Lawful b s (attachJoin k v s) :=
  (attach_lawful k v _ _ s).trans (settleRing_lawful k _)

theorem detach_lawful (v : SvcId) (s : State) : Lawful b s (detach v s) := by
  unfold detach
  split
  · exact Lawful.refl s
  · exact ((modSlot_lawful {}).trans (modSvc_lawful {})).trans (settleRing_lawful _ _)

theorem claimSlot_lawful (k : SlotId) (o : Owner) (s : State) : Lawful b s (claimSlot k o s) := by
  rcases claimSlot_cases k o s with ⟨e, -, h⟩ | ⟨-, h⟩
  · exact h ▸ (modSlot_lawful (claimedSlot_step _ o s)).trans modEvent_lawful
  · exact h ▸ modSlot_lawful (claimedSlot_step _ o s)

theorem leaveWait_lawful (s : State) (c : Claimant) : Lawful b s (s.leaveWait c) := Lawful.rest

theorem grantLoss_lawful (k : SlotId) (v : SvcId) (s : State) : Lawful b s (grantLoss k v s) :=
  (claimSlot_lawful k _ s).trans (modSvc_lawful {})

theorem handOver_lawful (k : SlotId) : ∀ (l : List Claimant) (s : State), Lawful b s (handOver k l s)
  | [], s => Lawful.rest
  | .event e :: l, s => by
    unfold handOver
    exact Lawful.rest.trans (claimSlot_lawful k _ _)
  | .loss v :: l, s => by
    unfold handOver
    split
    · exact Lawful.rest.trans (grantLoss_lawful k v _)
    · exact (modSvc_lawful { dark := fun _ => rfl }).trans (handOver_lawful k l _)

theorem slotGone_lawful (k : SlotId) (s : State) : Lawful b s (slotGone k s) := by
  rcases slotGone_cases k s with h | ⟨f, -, -, -, n, h | h⟩
  · rw [h]; exact Lawful.refl s
  · rw [h]; exact port_lawful id
  · rw [h]; exact port_lawful id

theorem detachAll_lawful (k : SlotId) (s : State) : Lawful b s (detachAll k s) :=
  Lawful.foldl (fun _ _ => modSvc_lawful {}) _ s

theorem emptySlot_lawful (k : SlotId) (s : State) : Lawful b s (emptySlot k s) :=
  ((detachAll_lawful k s).trans (modSlot_lawful (reset_step _))).trans (slotGone_lawful k _)

theorem releaseSlot_lawful (k : SlotId) (s : State) : Lawful b s (releaseSlot k s) :=
  (emptySlot_lawful k s).trans (handOver_lawful k _ _)

theorem stopFetch_lawful (k : SlotId) (s : State) : Lawful b s (stopFetch k s) :=
  modSlot_lawful (by split <;> exact {})

theorem advance_step (c : Clip) (x : Slot) : SlotStep x (x.advance c) := by
  unfold Slot.advance
  split
  · exact {}
  · dsimp only
    split
    · exact {}
    · split <;> exact {}

/-! ### The network FIFOs -/

theorem offer_lawful (r : RouteId) (c : Cell) (s : State) : Lawful b s (offer r c s) := by
  rcases offer_cases r c s with ⟨room, h⟩ | ⟨-, h⟩
  · exact h ▸ modOutLane_lawful { fifo := fun _ => by simpa using room }
  · exact h ▸ (modRoute_lawful { overflow := fun _ => by simp [sat16] }).trans
      (modOutLane_lawful { overflow := fun _ => by simp [sat16] })

theorem purge_lawful (r : RouteId) (n : OutLaneId) (s : State) : Lawful b s (purge r n s) :=
  modOutLane_lawful { fifo := (List.length_filter_le _ _).trans }

/-! ### The schedule unit -/

theorem noteFlags_lawful (s : State) (e : EventId) (f : OutFlags) : Lawful b s (s.noteFlags e f) := modEvent_lawful

theorem closeEvent_lawful (e : EventId) (o : Outcome) (f : OutFlags) (s : State) :
    Lawful b s (closeEvent e o f s) := by
  rcases closeEvent_cases e o f s with ⟨-, h⟩ | ⟨-, x, -, -, -, -, h⟩
  · rw [h]; exact Lawful.refl s
  · rw [h]; exact Lawful.rest

theorem leaveList_lawful (e : EventId) (s : State) : Lawful b s (leaveList e s) := setList_lawful

theorem closeScheduled_lawful (e : EventId) (o : Outcome) (f : OutFlags) (s : State) :
    Lawful b s (closeScheduled e o f s) :=
  (leaveList_lawful e s).trans (closeEvent_lawful e o f _)

theorem cue_lawful (v : SvcId) (e : EventId) (s : State) : Lawful b s (cue v e s) := by
  have taken : Lawful b s (((leaveList e s).modEvent e (fun x => { x with state := .cueing })).modSvc v
      (fun x => { x with state := .cueing, event := some e, exitPending := false })) :=
    ((leaveList_lawful e s).trans modEvent_lawful).trans (modSvc_lawful {})
  unfold cue
  dsimp only
  split
  · exact taken.trans (claimSlot_lawful _ _ _)
  · exact taken.trans Lawful.rest

theorem judgeHeads_lawful (v : SvcId) (p : Stamp) :
    ∀ (l : List EventId) (s : State), Lawful b s (judgeHeads v p l s)
  | [], s => Lawful.refl s
  | e :: l, s => by
    have next (t : State) (h : Lawful b s t) : Lawful b s (judgeHeads v p l t) :=
      h.trans (judgeHeads_lawful v p l t)
    unfold judgeHeads
    split
    · exact Lawful.refl s
    · split
      · split
        · exact next _ (closeScheduled_lawful e _ _ s)
        · split
          · split
            · exact next _ (cue_lawful v e s)
            · exact next _ (closeScheduled_lawful e _ _ s)
          · exact Lawful.refl s
      · split
        · exact next _ (closeScheduled_lawful e _ _ s)
        · exact Lawful.refl s

theorem cull_lawful (v : SvcId) (p : Stamp) (s : State) : Lawful b s (cull v p s) :=
  Lawful.foldl (fun _ _ => closeScheduled_lawful _ _ _ _) _ s

theorem givePs_lawful (v : SvcId) (fresh : Bool) (p : Stamp) (s : State) : Lawful b s (givePs v fresh p s) := by
  unfold givePs
  dsimp only
  cases fresh
  · exact judgeHeads_lawful v p _ s
  · exact (cull_lawful v p s).trans (judgeHeads_lawful v p _ _)

/-! ### The service engine: leaving a state -/

theorem toNetwork_step (x : Service) : SvcStep x x.toNetwork := {}

theorem cutShort_step (x : Service) : SvcStep x x.cutShort := by
  unfold Service.cutShort
  dsimp only
  split <;> exact {}

theorem goNetwork_lawful (v : SvcId) (s : State) : Lawful b s (goNetwork v s) := modSvc_lawful (toNetwork_step _)

theorem dropClaim_lawful (e : EventId) (k : Option SlotId) (s : State) : Lawful b s (dropClaim e k s) := by
  cases k
  · exact leaveWait_lawful s _
  · exact releaseSlot_lawful _ s

theorem endCueing_lawful (e : EventId) (o : Outcome) (f : OutFlags) (s : State) : Lawful b s (endCueing e o f s) :=
  ((closeEvent_lawful e o f s).trans (goNetwork_lawful _ _)).trans (dropClaim_lawful e _ _)

theorem leaveCueing_lawful (v : SvcId) (o : Outcome) (f : OutFlags) (s : State) :
    Lawful b s (leaveCueing v o f s) := by
  unfold leaveCueing
  split
  · exact endCueing_lawful _ o f s
  · exact goNetwork_lawful v s

theorem reportActive_lawful (e : EventId) (o : Option Outcome) (f : OutFlags) (s : State) :
    Lawful b s (reportActive e o f s) := modEvent_lawful

theorem earlyEnd_lawful (e : EventId) (o : Option Outcome) (f : OutFlags) (s : State) :
    Lawful b s (earlyEnd e o f s) :=
  ((reportActive_lawful e o f s).trans (modSvc_lawful (cutShort_step _))).trans (onSlot_lawful stopFetch_lawful _ _)

theorem lossFill_lawful (v : SvcId) (s : State) : Lawful b s (lossFill v s) := by
  unfold lossFill
  split
  · split
    · exact grantLoss_lawful _ v s
    · exact (modSvc_lawful (v := v) { dark := fun _ => rfl }).trans Lawful.rest
  · exact modSvc_lawful { dark := fun _ => rfl }

theorem dropLossSlot_lawful (v : SvcId) (s : State) : Lawful b s (dropLossSlot v s) :=
  onSlot_lawful releaseSlot_lawful _ s

/-! ### The service engine: the exit and the return -/

theorem recordExit_lawful (e : EventId) (px : Stamp) (d : Nat) (forced : Bool) (s : State) :
    Lawful b s (recordExit e px d forced s) := modEvent_lawful

theorem rehearsalExit_lawful (v : SvcId) (e : EventId) (s : State) : Lawful b s (rehearsalExit v e s) :=
  ((closeEvent_lawful e _ _ s).trans (goNetwork_lawful v _)).trans (onSlot_lawful releaseSlot_lawful _ _)

theorem breakExit_lawful (v : SvcId) (e : EventId) (px : Stamp) (d : Nat) (forced : Bool) (s : State) :
    Lawful b s (breakExit v e px d forced s) :=
  ((modSvc_lawful {}).trans modEvent_lawful).trans
    (onSlot_lawful (fun k t => (attach_lawful k v _ _ t).trans (modSlot_lawful {})) _ _)

theorem takeExit_lawful (v : SvcId) (e : EventId) (px : Stamp) (forced : Bool) (s : State) :
    Lawful b s (takeExit v e px forced s) := by
  unfold takeExit
  dsimp only
  split
  · exact (recordExit_lawful e px _ forced s).trans (rehearsalExit_lawful v e _)
  · exact (recordExit_lawful e px _ forced s).trans (breakExit_lawful v e px _ forced _)

theorem setSplice_lawful (e : EventId) (p : Option Stamp) (s : State) : Lawful b s (setSplice e p s) := modEvent_lawful

theorem cueingStep_lawful (v : SvcId) (c : Cell) (s : State) : Lawful b s (cueingStep v c s) := by
  unfold cueingStep
  split
  · exact Lawful.refl s
  · next e _ =>
    refine (setSplice_lawful e c.ps s).trans ?_
    generalize setSplice e c.ps s = s
    dsimp only
    split
    · exact Lawful.refl s
    · next splice _ =>
      split
      · exact takeExit_lawful v e _ _ s
      · split
        · exact takeExit_lawful v e _ _ s
        · have noted : Lawful b s
              (if spliceFrom c splice then s.noteFlags e (noSlotIf (s.event e).slot.isNone) else s) := by
            split
            · exact noteFlags_lawful s e _
            · exact Lawful.refl s
          refine noted.trans ?_
          generalize (if spliceFrom c splice then s.noteFlags e (noSlotIf (s.event e).slot.isNone) else s) = t
          split
          · exact Lawful.refl _
          · split
            · split
              · exact modSvc_lawful {}
              · exact leaveCueing_lawful v _ _ _
            · exact Lawful.refl _

theorem setNetworkMark_step (m : Bool) (x : Service) : SvcStep x (x.setNetworkMark m) := {}

theorem backToNetwork_lawful (v : SvcId) (m : Bool) (s : State) :
    Lawful b s (s.modSvc v (fun y => y.toNetwork.setNetworkMark m)) :=
  modSvc_lawful ((toNetwork_step _).trans (setNetworkMark_step m _))

theorem adSwitchBack_lawful (v : SvcId) (e : EventId) (s : State) : Lawful b s (adSwitchBack v e s) :=
  ((modEvent_lawful.trans (onSlot_lawful releaseSlot_lawful _ _)).trans (closeEvent_lawful e _ _ _)).trans
    (backToNetwork_lawful v _ _)

theorem switchBack_lawful (v : SvcId) (s : State) : Lawful b s (switchBack v s) := by
  unfold switchBack
  split
  · exact adSwitchBack_lawful v _ s
  · exact (dropLossSlot_lawful v s).trans (backToNetwork_lawful v true _)
  · exact backToNetwork_lawful v true s

theorem noteCurrent_lawful (v : SvcId) (f : OutFlags) (s : State) : Lawful b s (noteCurrent v f s) := by
  unfold noteCurrent
  split
  · exact noteFlags_lawful s _ f
  · exact Lawful.refl s

theorem forceReturn_lawful (v : SvcId) (s : State) : Lawful b s (forceReturn v s) :=
  (noteCurrent_lawful v _ s).trans (modSvc_lawful {})

theorem returningStep_lawful (v : SvcId) (c : Cell) (s : State) : Lawful b s (returningStep v c s) := by
  refine (modSvc_lawful (v := v) (f := fun x => { x with returnRef := x.returnRef.or c.ps }) {}).trans ?_
  unfold returningStep
  generalize s.modSvc v (fun x => { x with returnRef := x.returnRef.or c.ps }) = s
  dsimp only
  split
  · exact switchBack_lawful v s
  · split
    · split
      · exact switchBack_lawful v s
      · split
        · exact forceReturn_lawful v s
        · exact Lawful.refl s
    · exact Lawful.refl s

theorem insertingStep_lawful (v : SvcId) (c : Cell) (s : State) : Lawful b s (insertingStep v c s) := by
  unfold insertingStep
  split
  · split
    · split
      · exact ((modSvc_lawful {}).trans (onSlot_lawful stopFetch_lawful _ _)).trans (returningStep_lawful v c _)
      · exact Lawful.refl s
    · exact Lawful.refl s
  · exact Lawful.refl s

/-- The end of a network service's wait for its lane: the mark, or loss fill (R35). -/
theorem giveUp_lawful (v : SvcId) (s : State) : Lawful b s (giveUp v s) := by
  have ended (t : State) : Lawful b t
      (if (goNetwork v t).laneUp v then (goNetwork v t).modSvc v (Service.setNetworkMark true)
        else lossFill v (goNetwork v t)) := by
    refine (goNetwork_lawful v t).trans ?_
    split
    · exact modSvc_lawful (setNetworkMark_step true _)
    · exact lossFill_lawful v _
  unfold giveUp
  dsimp only
  refine Lawful.trans ?_ (ended _)
  split
  · exact (onSlot_lawful releaseSlot_lawful _ s).trans (closeEvent_lawful _ _ _ _)
  · exact dropLossSlot_lawful v s
  · exact Lawful.refl s

theorem backstopStep_lawful (v : SvcId) (s : State) : Lawful b s (backstopStep v s) := by
  unfold backstopStep
  dsimp only
  split
  · split
    · exact ((forceReturn_lawful v s).trans (onSlot_lawful stopFetch_lawful _ _)).trans (modSvc_lawful {})
    · exact giveUp_lawful v s
  · exact Lawful.refl s

/-! ### The service engine: one network cell -/

theorem breakStep_lawful (v : SvcId) (s : State) : Lawful b s (breakStep v s) := by
  have dropped : Lawful b s (s.modSvc v (fun x => { x.dropClock with lastPs := none })) := modSvc_lawful {}
  unfold breakStep
  dsimp only
  split
  · exact dropped.trans (leaveCueing_lawful v _ _ _)
  · split
    · exact dropped.trans (earlyEnd_lawful _ _ _ _)
    · exact dropped
  · exact (dropped.trans (noteCurrent_lawful v _ _)).trans (modSvc_lawful {})
  · exact dropped

theorem track_step (x : Service) (c : Cell) (ms : Ms) : SvcStep x (x.track c ms) := by
  unfold Service.track
  dsimp only
  split <;> exact {}

theorem switchStep_lawful (v : SvcId) (c : Cell) (s : State) : Lawful b s (switchStep v c s) := by
  unfold switchStep
  split
  · exact cueingStep_lawful v c s
  · exact insertingStep_lawful v c s
  · exact returningStep_lawful v c s
  · exact Lawful.refl s

theorem dispose_lawful (v : SvcId) (r : RouteId) (c : Cell) (s : State) : Lawful b s (dispose v r c s) := by
  unfold dispose
  dsimp only
  split
  · split
    · exact (offer_lawful r _ s).trans (modSvc_lawful {})
    · exact offer_lawful r _ s
  · exact Lawful.refl s

theorem networkCell_lawful (v : SvcId) (r : RouteId) (c : Cell) (s : State) : Lawful b s (networkCell v r c s) := by
  have broken : Lawful b s (if c.discontinuity then breakStep v s else s) := by
    split
    · exact breakStep_lawful v s
    · exact Lawful.refl s
  unfold networkCell
  generalize (if c.discontinuity then breakStep v s else s) = t at broken ⊢
  dsimp only
  have tracked : Lawful b t (t.modSvc v (fun x => x.track c t.now)) := modSvc_lawful (track_step _ c t.now)
  refine ((broken.trans tracked).trans ?_).trans
    ((switchStep_lawful v c _).trans (dispose_lawful v r c _))
  split
  · exact givePs_lawful v _ _ _
  · exact Lawful.refl _

/-! ### The service engine: lanes and owners -/

theorem sourceLost_lawful (v : SvcId) (s : State) : Lawful b s (sourceLost v s) := by
  unfold sourceLost
  dsimp only
  split
  · split
    · exact Lawful.refl s
    · exact lossFill_lawful v s
  · exact (leaveCueing_lawful v _ _ s).trans (lossFill_lawful v _)
  · split
    · exact modSvc_lawful {}
    · exact (goNetwork_lawful v s).trans (lossFill_lawful v _)
  · exact (goNetwork_lawful v s).trans (lossFill_lawful v _)
  · exact Lawful.refl s

/-- A waiting loss claim of the service is given up. -/
theorem leaveLoss_lawful (v : SvcId) (s : State) :
    Lawful b s (if (s.svc v).lossWaiting then
      (s.leaveWait (.loss v)).modSvc v (fun y => { y with lossWaiting := false }) else s) := by
  split
  · exact (leaveWait_lawful s _).trans (modSvc_lawful {})
  · exact Lawful.refl s

theorem sourceBack_lawful (v : SvcId) (s : State) : Lawful b s (sourceBack v s) := by
  unfold sourceBack
  dsimp only
  split
  · exact modSvc_lawful {}
  · exact leaveLoss_lawful v s
  · exact Lawful.refl s

theorem endActivity_lawful (v : SvcId) (s : State) : Lawful b s (endActivity v s) := by
  unfold endActivity
  dsimp only
  split
  · exact modSvc_lawful {}
  · exact leaveLoss_lawful v s
  · exact leaveCueing_lawful v _ _ s
  · exact dropLossSlot_lawful v s
  · exact dropLossSlot_lawful v s
  · split
    · exact (closeEvent_lawful _ _ _ s).trans (onSlot_lawful releaseSlot_lawful _ _)
    · exact Lawful.refl s
  · exact Lawful.refl s

theorem joinOwner_lawful (v : SvcId) (a : AlertId) (s : State) : Lawful b s (joinOwner v a s) := by
  unfold joinOwner
  split
  · exact onSlot_lawful (fun k => attachJoin_lawful k v) _ s
  · exact Lawful.refl s

theorem ownerGained_lawful (v : SvcId) (a : AlertId) (s : State) : Lawful b s (ownerGained v a s) :=
  ((endActivity_lawful v s).trans (modSvc_lawful {})).trans (joinOwner_lawful v a _)

theorem ownerChanged_lawful (v : SvcId) (a : AlertId) (s : State) : Lawful b s (ownerChanged v a s) :=
  ((detach_lawful v s).trans (modSvc_lawful {})).trans (joinOwner_lawful v a _)

theorem ownerLost_lawful (v : SvcId) (s : State) : Lawful b s (ownerLost v s) := by
  have left : Lawful b s ((detach v s).modSvc v (fun x => { x.toNetwork with owner := none })) :=
    (detach_lawful v s).trans (modSvc_lawful {})
  unfold ownerLost
  dsimp only
  split
  · exact left
  · split
    · exact left.trans (modSvc_lawful {})
    · exact left.trans (lossFill_lawful v _)

theorem reclaimEvent_lawful (e : EventId) (s : State) : Lawful b s (reclaimEvent e s) := by
  unfold reclaimEvent
  dsimp only
  split
  · exact (closeEvent_lawful e _ _ s).trans (goNetwork_lawful _ _)
  · exact ((reportActive_lawful e _ _ s).trans (modSvc_lawful (cutShort_step _))).trans modEvent_lawful

theorem reclaimLoss_lawful (v : SvcId) (s : State) : Lawful b s (reclaimLoss v s) := by
  unfold reclaimLoss
  split
  · exact Lawful.refl s
  · exact modSvc_lawful { dark := fun _ => rfl }

theorem reclaimTold_lawful (o : Option Owner) (s : State) : Lawful b s (reclaimTold o s) := by
  unfold reclaimTold
  split
  · exact reclaimEvent_lawful _ s
  · exact reclaimLoss_lawful _ s
  · exact Lawful.refl s

end
end Sys2Proof.Machine
end

section
/-!
PROOFS. The operations of the alert controller, the store port, the cue unit and the lane schedulers are lawful.
-/
namespace Sys2Proof.Machine
set_option Elab.async false

section
variable {b : Leeway}

/-! ### The tenure of the store port -/

/-- A change of the port's working state, its settings kept. -/
theorem portTest_lawful (s : State) : Lawful b s (portTest s) := by
  rcases portTest_cases s with ⟨h, -⟩ | ⟨h, -, -⟩
  · rw [h]; exact Lawful.refl s
  · rw [h]; exact modPort_lawful id

theorem gapOver_lawful (s : State) : Lawful b s (gapOver s) := (modPort_lawful id).trans (portTest_lawful _)

theorem endTenure_lawful (s : State) : Lawful b s (endTenure s) := by
  rcases endTenure_cases s with ⟨-, h⟩ | ⟨-, h⟩
  · rw [h]; exact modPort_lawful id
  · rw [h]; exact (modPort_lawful id).trans (gapOver_lawful _)

/-- A wanting slot has room for the cell that is fetched for it (R95, R103). -/
theorem wants_step {x : Slot} (h : x.wants = true) (p : FetchPoint) : SlotStep x { x with inFlight := some p } where
  load := fun _ => by
    have room : x.ring.length < 32 := by
      unfold Slot.wants Config.ringCells at h
      simp only [Bool.and_eq_true, decide_eq_true_eq] at h
      exact h.2
    simpa [Slot.load] using room

theorem takeCell_lawful {k : SlotId} {s : State} (h : (s.slot k).wants = true) : Lawful b s (takeCell k s) :=
  (modPort_lawful id).trans (modSlot_lawful (wants_step h _))

theorem dropFetch_lawful (s : State) : Lawful b s (dropFetch s) := modPort_lawful id

/-- The arbiter chooses among the slots it is given (R113). -/
theorem choose_mem {s : State} {k : SlotId} : ∀ {l : List SlotId}, choose s l = some k → k ∈ l
  | [], h => nomatch h
  | j :: l, h => by
    unfold choose at h
    split at h
    · simp_all
    · next i hi =>
      have := choose_mem hi
      split at h <;> simp_all

theorem choose_wants {s : State} {k : SlotId} (h : choose s (wantingSlots s) = some k) : (s.slot k).wants = true :=
  (Tbl.mem_indices _ _ _).1 (choose_mem h)

/-! ### A finished fetch at the feeder -/

theorem advanceCursor_lawful (k : SlotId) (s : State) : Lawful b s (advanceCursor k s) :=
  modSlot_lawful (advance_step _ _)

theorem skipCell_lawful (k : SlotId) (s : State) : Lawful b s (skipCell k s) :=
  (advanceCursor_lawful k s).trans (modSlot_lawful { faults := fun _ => by simp [sat16] })

theorem alertFault_lawful (a : AlertId) (s : State) : Lawful b s (alertFault a s) := by
  refine modAlert_lawful ?_
  split
  · exact {}
  · dsimp only
    split
    · exact { bare := fun _ e => (nomatch e), faults := fun _ => by simp [sat16], stallSeen := fun _ => rfl }
    · exact { faults := fun _ => by simp [sat16] }

theorem alertWritten_lawful (a : AlertId) (s : State) : Lawful b s (alertWritten a s) := by
  refine modAlert_lawful ?_
  split
  · exact {}
  · exact { bare := fun _ e => (nomatch e), faults := fun _ => Nat.zero_le _ }

theorem adFault_lawful (k : SlotId) (e : EventId) (s : State) : Lawful b s (adFault k e s) := by
  unfold adFault
  split
  · exact endCueing_lawful e _ _ s
  · exact (earlyEnd_lawful e _ _ s).trans (stopFetch_lawful k _)
  · exact Lawful.refl s

theorem landed_step (x : Slot) : SlotStep x { x with inFlight := none } where
  load := fun h => by
    unfold Slot.load at h ⊢
    simp only [Option.isSome_none, Bool.toNat_false]
    omega

theorem fetchFault_lawful (k : SlotId) (s : State) : Lawful b s (fetchFault k s) := by
  have landed : Lawful b s (s.modSlot k (fun y => { y with inFlight := none })) := modSlot_lawful (landed_step _)
  unfold fetchFault
  dsimp only
  split
  · exact landed
  · split
    · exact landed
    · exact landed.trans (adFault_lawful k _ _)
    · exact landed.trans (skipCell_lawful k _)
    · exact landed.trans ((skipCell_lawful k _).trans (alertFault_lawful _ _))

theorem attachLoss_lawful (k : SlotId) (s : State) : Lawful b s (attachLoss k s) := by
  unfold attachLoss
  dsimp only
  split
  · split
    · exact attach_lawful k _ _ _ s
    · exact Lawful.refl s
  · exact Lawful.refl s

theorem reportWritten_lawful (k : SlotId) (s : State) : Lawful b s (reportWritten k s) := by
  unfold reportWritten
  split
  · exact alertWritten_lawful _ s
  · exact Lawful.refl s

/-- A cell that was in flight joins the ring: the slot holds as much as before (R96). -/
theorem append_step {x : Slot} (h : x.inFlight.isSome = true) (clip : Clip) (c : Cell) :
    SlotStep x (Slot.append clip c { x with inFlight := none }) where
  load := fun hl => by
    unfold Slot.load at hl
    rw [h] at hl
    simpa [Slot.load, Slot.append] using hl
  faults := fun _ => Nat.zero_le _

theorem modSlot_modSlot (s : State) (k : SlotId) (f g : Slot → Slot) :
    (s.modSlot k f).modSlot k g = s.modSlot k (g ∘ f) := by
  unfold State.modSlot State.slot
  simp

theorem writeCell_lawful {k : SlotId} {c : Cell} {s : State} (h : (s.slot k).inFlight.isSome = true) :
    Lawful b s (writeCell k c (s.modSlot k (fun y => { y with inFlight := none }))) := by
  unfold writeCell
  dsimp only
  rw [modSlot_modSlot]
  exact (((modSlot_lawful (append_step h _ c)).trans (reportWritten_lawful k _)).trans
    (advanceCursor_lawful k _)).trans ((attachLoss_lawful k _).trans (settleRing_lawful k _))

theorem fetchDone_lawful (k : SlotId) (bytes : List Byte) (s : State) : Lawful b s (fetchDone k bytes s) := by
  unfold fetchDone
  dsimp only
  split
  · exact modSlot_lawful (landed_step _)
  · next h =>
    have inFlight : (s.slot k).inFlight.isSome = true := by
      cases e : (s.slot k).inFlight
      · exact absurd (.inl (by simp [e])) h
      · rfl
    split
    · split
      · exact writeCell_lawful inFlight
      · exact faultSeen_lawful.trans (fetchFault_lawful k _)
    · exact faultSeen_lawful.trans (fetchFault_lawful k _)

theorem decideNext_lawful : ∀ (n : Nat) (s : State), Lawful b s (decideNext n s)
  | 0, s => endTenure_lawful s
  | n + 1, s => by
    unfold decideNext
    split
    · exact endTenure_lawful s
    · split
      · exact modPort_lawful id
      · split
        · split
          · exact endTenure_lawful s
          · next k hk =>
            have taken : Lawful b s (takeCell k s) := takeCell_lawful (choose_wants hk)
            split
            · exact ((taken.trans faultSeen_lawful).trans (fetchFault_lawful k _)).trans (decideNext_lawful n _)
            · exact taken.trans (modPort_lawful id)
        · exact endTenure_lawful s

theorem nextStep_lawful (s : State) : Lawful b s (nextStep s) := decideNext_lawful 9 s

theorem takeBus_lawful (s : State) : Lawful b s (takeBus s) := (modPort_lawful id).trans (nextStep_lawful _)

theorem grantStep_lawful (busBusy : Bool) (s : State) : Lawful b s (grantStep busBusy s) := by
  rcases grantStep_cases busBusy s with ⟨-, -, h⟩ | ⟨-, h⟩
  · rw [h]; exact takeBus_lawful s
  · rw [h]; exact Lawful.refl s

theorem portFault_lawful (f : Fetch) (s : State) : Lawful b s (portFault f s) :=
  (((dropFetch_lawful s).trans faultSeen_lawful).trans (fetchFault_lawful f.slot _)).trans (nextStep_lawful _)

theorem burstDone_lawful (f : Fetch) (buffer : List Byte) (s : State) : Lawful b s (burstDone f buffer s) := by
  unfold burstDone
  split
  · exact ((dropFetch_lawful s).trans (fetchDone_lawful f.slot buffer _)).trans (nextStep_lawful _)
  · exact modPort_lawful id

theorem answerStep_lawful (f : Fetch) (ans : Answer) (data : List Byte) (s : State) :
    Lawful b s (answerStep f ans data s) := by
  unfold answerStep
  split
  · split
    · exact portFault_lawful f s
    · exact modPort_lawful id
  · split
    · split
      · split
        · exact modPort_lawful id
        · exact burstDone_lawful f _ s
      · split
        · exact modPort_lawful id
        · exact burstDone_lawful f _ s
    · exact portFault_lawful f s

theorem burstAnswerStep_lawful (ans : Answer) (data : List Byte) (s : State) :
    Lawful b s (burstAnswerStep ans data s) := by
  unfold burstAnswerStep
  split
  · split
    · exact endTenure_lawful s
    · split
      · exact (dropFetch_lawful s).trans (nextStep_lawful _)
      · exact answerStep_lawful _ ans data s
  · exact Lawful.refl s

theorem backOffStep_lawful (s : State) : Lawful b s (backOffStep s) := by
  unfold backOffStep
  split
  · split
    · exact endTenure_lawful s
    · split
      · exact (dropFetch_lawful s).trans (endTenure_lawful _)
      · exact (modPort_lawful id).trans (endTenure_lawful _)
  · exact Lawful.refl s

theorem gapEndStep_lawful (s : State) : Lawful b s (gapEndStep s) := by
  unfold gapEndStep
  split
  · exact gapOver_lawful s
  · exact Lawful.refl s

theorem storeClock_lawful (s : State) : Lawful b s (storeClock s) := by
  unfold storeClock
  split
  · split
    · exact gapOver_lawful s
    · exact modPort_lawful id
  · exact Lawful.refl s

/-! ### Clock events and lines -/

theorem addDue_lawful (s : State) (d : Due) : Lawful b s (s.addDue d) := Lawful.rest

theorem dropClocks_lawful (s : State) (c : CounterId) : Lawful b s (s.dropClocks c) := Lawful.rest

/-- A count above 1 falls and stays in its range (R165). -/
theorem countDown_inRange {x : Counter} (h : 1 < x.count) (r : CounterInRange x) :
    CounterInRange { x with count := x.count - 1 } := by
  obtain ⟨h1, h2, h3⟩ := r
  refine ⟨h1, h2, fun run => ?_⟩
  have := h3 run
  dsimp only
  omega

theorem clockCounter_lawful (c : CounterId) (s : State) : Lawful b s (clockCounter c s) := by
  unfold clockCounter
  dsimp only
  split
  · exact Lawful.refl s
  · split
    · exact Lawful.refl s
    · split
      · exact addDue_lawful s _
      · next h =>
        refine modCounter_lawful (countDown_inRange ?_)
        simp only [Bool.or_eq_true, decide_eq_true_eq, not_or, Nat.not_le] at h
        exact h.2

theorem clockMs_lawful (s : State) (c : CounterId) : Lawful b s (clockMs s c) := by
  unfold clockMs
  split
  · exact addDue_lawful s _
  · exact clockCounter_lawful c s

theorem clockSource_lawful (src : ClockSource) (s : State) : Lawful b s (clockSource src s) :=
  Lawful.foldl (fun s c => clockCounter_lawful c s) _ s

theorem lineEdge_lawful (n : LineId) (new : Level) (s : State) : Lawful b s (lineEdge n new s) := by
  have changed : Lawful b s (s.modLine n (fun x => { x with debounced := new })) := modLine_lawful id
  unfold lineEdge
  dsimp only
  split
  · exact changed.trans (clockSource_lawful _ _)
  · exact changed

theorem drive_lawful (n : LineId) (new : Level) (s : State) : Lawful b s (drive n new s) := by
  have driven : Lawful b s (s.modLine n (fun x => { x with sampled := new })) := modLine_lawful id
  unfold drive
  dsimp only
  split
  · exact driven
  · exact driven.trans (lineEdge_lawful n new _)

theorem followTally_lawful (s : State) (n : LineId) : Lawful b s (followTally s n) := by
  unfold followTally
  split
  · exact drive_lawful n _ s
  · exact Lawful.refl s

theorem settleTallies_lawful (s : State) : Lawful b s (settleTallies s) := Lawful.foldl followTally_lawful _ s

theorem finish_lawful (s : State) : Lawful b s (finish s) := (settleTallies_lawful s).trans (portTest_lawful _)

theorem finishFrom_lawful (s t : State) : Lawful b t (finishFrom s t) := by
  unfold finishFrom
  split
  · exact (oneEvent_lawful (nextStep_lawful t)).trans (finish_lawful _)
  · exact finish_lawful t

theorem event_lawful {f : State → State} {s : State} (h : Lawful b s (f s)) : Lawful b s (event f s) :=
  (oneEvent_lawful h).trans (finishFrom_lawful s _)

theorem sampleLine_lawful (pins : BitVec 8) (s : State) (n : LineId) : Lawful b s (sampleLine pins s n) := by
  have sampled : Lawful b s (s.modLine n (fun y => { y with sampled := Level.of (pins.getLsbD n.val) })) :=
    modLine_lawful id
  unfold sampleLine
  dsimp only
  split
  · exact Lawful.refl s
  · split
    · exact modLine_lawful id
    · split
      · exact sampled.trans (modLine_lawful id)
      · split
        · exact sampled.trans (modLine_lawful id)
        · exact sampled.trans (addDue_lawful _ _)

theorem debounceStep_lawful (n : LineId) (s : State) : Lawful b s (debounceStep n s) := by
  unfold debounceStep
  dsimp only
  split
  · exact (modLine_lawful id).trans (lineEdge_lawful n _ _)
  · exact Lawful.refl s

/-! ### Alert channels -/

/-- A live channel's lease may be set afresh (R149). -/
theorem renewLease_lawful {a : AlertId} {s : State} (live : (s.alert a).state ≠ .idle) :
    Lawful b s (renewLease a s) :=
  modAlert_lawful { bare := fun _ e => absurd e live }

theorem reportOwner_lawful (s : State) (v : SvcId) : Lawful b s (reportOwner s v) := by
  unfold reportOwner
  split
  · exact ownerGained_lawful v _ s
  · split
    · exact Lawful.refl s
    · exact ownerChanged_lawful v _ s
  · exact ownerLost_lawful v s
  · exact Lawful.refl s

theorem recompute_lawful (group : BitVec 64) (s : State) : Lawful b s (recompute group s) :=
  Lawful.foldl reportOwner_lawful _ s

theorem reclaim_lawful (k : SlotId) (a : AlertId) (s : State) : Lawful b s (reclaim k a s) :=
  ((reclaimTold_lawful _ s).trans (emptySlot_lawful k _)).trans (claimSlot_lawful k _ _)

theorem alertSlot_lawful (a : AlertId) (s : State) : Lawful b s (alertSlot a s).1 := by
  unfold alertSlot
  split
  · dsimp only
    exact claimSlot_lawful _ _ s
  · split
    · dsimp only
      exact reclaim_lawful _ a s
    · exact Lawful.refl s

theorem modAlert_modAlert (s : State) (a : AlertId) (f g : Alert → Alert) :
    (s.modAlert a f).modAlert a g = s.modAlert a (g ∘ f) := by
  unfold State.modAlert State.alert
  simp

theorem activate_lawful (a : AlertId) (s : State) : Lawful b s (activate a s) := by
  refine oneEvent_lawful ((alertSlot_lawful a s).trans (Lawful.trans ?_ (recompute_lawful _ _)))
  unfold renewLease
  rw [modAlert_modAlert]
  exact modAlert_lawful { bare := fun _ e => (nomatch e), faults := fun _ => Nat.zero_le _ }

theorem endChannel_lawful (a : AlertId) (s : State) : Lawful b s (endChannel a s) :=
  oneEvent_lawful (((onSlot_lawful releaseSlot_lawful _ s).trans
    (modAlert_lawful { bare := fun _ _ => ⟨rfl, rfl⟩ })).trans (recompute_lawful _ _))

theorem counterAlertOn_lawful (a : AlertId) (s : State) : Lawful b s (counterAlertOn a s) := by
  unfold counterAlertOn
  dsimp only
  split
  · next live => exact renewLease_lawful live
  · split
    · exact modAlert_lawful { blocked := fun _ => rfl }
    · exact activate_lawful a s

theorem counterAlertRenew_lawful (a : AlertId) (s : State) : Lawful b s (counterAlertRenew a s) := by
  unfold counterAlertRenew
  split
  · next live => exact renewLease_lawful (of_decide_eq_true live)
  · exact Lawful.refl s

theorem lapse_lawful (a : AlertId) (s : State) : Lawful b s (lapse a s) :=
  (modAlert_lawful { lapsed := fun _ => rfl }).trans (endChannel_lawful a _)

/-! ### Expiries -/

theorem spliceEvent_lawful (e : EventId) (s : State) : Lawful b s (spliceEvent e s) := by
  unfold spliceEvent
  dsimp only
  split
  · exact closeScheduled_lawful e _ _ s
  · split
    · split
      · exact modEvent_lawful.trans (cue_lawful _ e _)
      · exact closeScheduled_lawful e _ _ s
    · exact closeScheduled_lawful e _ _ s

theorem fireTarget_lawful (t : Target) (s : State) : Lawful b s (fireTarget t s) := by
  unfold fireTarget
  split
  · exact Lawful.refl s
  · split
    · exact spliceEvent_lawful _ s
    · exact Lawful.refl s
  · exact counterAlertOn_lawful _ s
  · exact counterAlertRenew_lawful _ s

/-- A stopped or reloaded counter is in its range (R167). -/
theorem expired_inRange {x : Counter} (r : CounterInRange x) : CounterInRange x.expired := by
  obtain ⟨h1, h2, -⟩ := r
  unfold Counter.expired
  split
  · exact ⟨h1, h2, fun run => (nomatch run)⟩
  · exact ⟨h1, h2, fun _ => ⟨h1, le_refl _⟩⟩

theorem expireCounter_lawful (c : CounterId) (s : State) : Lawful b s (expireCounter c s) := by
  have expired : Lawful b s (s.modCounter c Counter.expired) := modCounter_lawful expired_inRange
  unfold expireCounter
  dsimp only
  split
  · exact expired.trans (dropClocks_lawful _ c)
  · exact expired

theorem takeClock_lawful : ∀ (n : Nat) (c : CounterId) (s : State), Lawful b s (takeClock n c s)
  | 0, _, s => Lawful.refl s
  | n + 1, c, s => by
    have fired : Lawful b s (fireTarget (s.counter c).target (expireCounter c s)) :=
      (expireCounter_lawful c s).trans (fireTarget_lawful _ _)
    unfold takeClock
    dsimp only
    split
    · exact Lawful.refl s
    · split
      · next h => exact modCounter_lawful (countDown_inRange h)
      · split
        · exact fired
        · split
          · exact fired.trans (takeClock_lawful n _ _)
          · exact fired

theorem expiryStep_lawful (c : CounterId) (s : State) : Lawful b s (expiryStep c s) :=
  event_lawful (takeClock_lawful 16 c s)

theorem pulseStep_lawful (c : CounterId) (s : State) : Lawful b s (pulseStep c s) := by
  unfold pulseStep
  split
  · exact expiryStep_lawful c s
  · exact Lawful.refl s

theorem takeFresh_lawful : ∀ (n : Nat) (old : List Due) (s : State), Lawful b s (takeFresh n old s)
  | 0, _, s => Lawful.refl s
  | n + 1, old, s => by
    unfold takeFresh
    split
    · exact Lawful.refl s
    · exact (Lawful.rest.trans (expiryStep_lawful _ _)).trans (takeFresh_lawful n _ _)

theorem settleFresh_lawful (s t : State) : Lawful b t (settleFresh s t) := takeFresh_lawful _ _ t

theorem whole_lawful {f : State → State} {s : State} (h : Lawful b s (f s)) : Lawful b s (whole f s) :=
  h.trans (settleFresh_lawful s _)

/-! ### The lane schedulers -/

theorem place_lawful (n : OutLaneId) (c : Cell) (s : State) : Lawful b s (place n c s) := modOutLane_lawful {}

theorem emitMedia_lawful (n : OutLaneId) (r : RouteId) (c : Cell) (s : State) : Lawful b s (emitMedia n r c s) :=
  (modRoute_lawful {}).trans (place_lawful n _ _)

theorem emitResponse_lawful (n : OutLaneId) (h : ChannelId) (reserve : Bool) (s : State) :
    Lawful b s (emitResponse n h reserve s) := by
  unfold emitResponse
  split
  · exact Lawful.refl s
  · next c q e =>
    exact ((modChannel_lawful { queue := by simp [e] }).trans (place_lawful n c _)).trans (modOutLane_lawful {})

theorem takeHead_lawful (v : SvcId) (k : SlotId) (s : State) : Lawful b s (takeHead v k s) :=
  (modSlot_lawful {}).trans (settleRing_lawful k _)

theorem countStrays_step (n : Nat) (x : Service) : SvcStep x { x.countStrays n with insertMark := false } := by
  unfold Service.countStrays
  split
  · exact {}
  · exact { strayCount := fun _ => Nat.min_le_right _ _, straySeen := fun _ => rfl }

/-- A change of the event, if any, that a service's inserted cells count for. -/
theorem countedEvent_lawful (e : Option EventId) (f : Event → Event) (s : State) :
    Lawful b s (match e with | some e => s.modEvent e f | none => s) := by
  cases e
  · exact Lawful.refl s
  · exact modEvent_lawful

theorem inserted_step (v : SvcId) (o : OutLane) :
    OutLaneStep o { o with remaining := o.remaining.put v (o.remaining.get v - 1), insRot := some v } := {}

theorem emitInserted_lawful (n : OutLaneId) (v : SvcId) (r : RouteId) (k : SlotId) (c : RingCell) (s : State) :
    Lawful b s (emitInserted n v r k c s) := by
  unfold emitInserted
  dsimp only
  have counted := countedEvent_lawful (b := b) (countedEvent s v k) (fun y => { y with inserted := sat32 y.inserted }) s
  refine Lawful.trans (counted.trans (Lawful.trans ?_
    ((takeHead_lawful v k _).trans (emitMedia_lawful n r _ _)))) (modOutLane_lawful (inserted_step v _))
  exact modSvc_lawful (countStrays_step _ _)

theorem shedHead_lawful (v : SvcId) (k : SlotId) (s : State) : Lawful b s (shedHead v k s) := by
  unfold shedHead
  dsimp only
  exact (countedEvent_lawful (countedEvent s v k) _ s).trans (takeHead_lawful v k _)

theorem stepPattern_step (x : Service) : SvcStep x x.stepPattern where
  shedPattern := fun _ => Nat.le_of_lt_succ (Nat.mod_lt _ (by decide))

theorem judgeService_lawful :
    ∀ (fuel : Nat) (n : OutLaneId) (v : SvcId) (r : RouteId) (s : State), Lawful b s (judgeService fuel n v r s).1
  | 0, _, _, _, s => Lawful.refl s
  | fuel + 1, n, v, r, s => by
    unfold judgeService
    split
    · exact Lawful.refl s
    · next k c _ =>
      split
      · exact emitInserted_lawful n v r k c s
      · next proj _ =>
        dsimp only
        have late : Lawful b s (s.modSvc v (fun x => { x with lateness := latenessOf x proj c })) := modSvc_lawful {}
        generalize s.modSvc v (fun x => { x with lateness := latenessOf x proj c }) = t at late ⊢
        have stepped : Lawful b s (t.modSvc v Service.stepPattern) := late.trans (modSvc_lawful (stepPattern_step _))
        split
        · refine late.trans ?_
          dsimp only
          exact modOutLane_lawful {}
        · split
          · exact (stepped.trans (shedHead_lawful v k _)).trans (judgeService_lawful fuel n v r _)
          · exact stepped.trans (emitInserted_lawful n v r k c _)

theorem insertWalk_lawful (n : OutLaneId) : ∀ (l : List SvcId) (s : State), Lawful b s (insertWalk n l s).1
  | [], s => Lawful.refl s
  | v :: l, s => by
    unfold insertWalk
    split
    · exact insertWalk_lawful n l s
    · next r _ =>
      have judged : Lawful b s (judgeService 9 n v r s).1 := judgeService_lawful 9 n v r s
      split
      · next t e => rw [e] at judged; exact judged
      · next t e => rw [e] at judged; exact judged.trans (insertWalk_lawful n l t)

theorem otherCell_lawful (n : OutLaneId) (s : State) : Lawful b s (otherCell n s) := by
  unfold otherCell
  split
  · next x l e =>
    refine (modOutLane_lawful { fifo := fun h => ?_ }).trans (emitMedia_lawful n _ _ _)
    rw [e, List.length_cons] at h
    exact Nat.le_of_succ_le h
  · split
    · exact emitResponse_lawful n _ _ s
    · exact place_lawful n _ s

theorem insertOrOther_lawful (n : OutLaneId) (s : State) : Lawful b s (insertOrOther n s) := by
  have walked : Lawful b s (insertWalk n (cyclicAfter 64 (s.outLane n).insRot) s).1 := insertWalk_lawful n _ s
  unfold insertOrOther
  split
  · next t e => rw [e] at walked; exact walked
  · next t e => rw [e] at walked; exact walked.trans (otherCell_lawful n t)

theorem fillPosition_lawful (n : OutLaneId) (s : State) : Lawful b s (fillPosition n s) := by
  unfold fillPosition
  split
  · exact insertOrOther_lawful n s
  · split
    · exact emitResponse_lawful n _ _ s
    · exact insertOrOther_lawful n s

theorem positionStep_lawful (n : OutLaneId) (s : State) : Lawful b s (positionStep n s) := by
  rcases positionStep_cases n s with ⟨-, h⟩ | ⟨-, h⟩
  · rw [h]; exact (fillPosition_lawful n s).trans (finish_lawful _)
  · rw [h]; exact Lawful.refl s

theorem nextShed_le {x : Service} (h : x.shedLevel ≤ 7) : nextShed x ≤ 7 := by
  unfold nextShed
  split_ifs <;> omega

theorem updateShed_lawful (n : OutLaneId) (s : State) (v : SvcId) : Lawful b s (updateShed n s v) := by
  unfold updateShed
  dsimp only
  split
  · exact modSvc_lawful { shedLevel := nextShed_le }
  · exact Lawful.refl s

theorem begun_step (T : Tbl Nat 64) (o : OutLane) :
    OutLaneStep o { o with windowK := o.capacity, remaining := T, held := Vector.replicate 64 false,
                           reserveUsed := false, position := 0 } := {}

theorem beginWindow_lawful (n : OutLaneId) (s : State) : Lawful b s (beginWindow n s) := by
  refine (Lawful.foldl (updateShed_lawful n) (List.finRange 64) s).trans ?_
  unfold beginWindow
  generalize (List.finRange 64).foldl (updateShed n) s = t
  exact modOutLane_lawful (begun_step _ _)

end
end Sys2Proof.Machine
end

section
/-!
PROOFS. The lane receivers, the timer, the writes of the tables, RESTART and the records of a control cell are lawful.
-/
namespace Sys2Proof.Machine
set_option Elab.async false

section
variable {b : Leeway}

/-! ### The lane receivers -/

theorem countUnrouted_lawful (lane : InLaneId) (s : State) : Lawful b s (countUnrouted lane s) :=
  modInLane_lawful { unrouted := fun _ => by simp [sat16] }

theorem laneLossStep_lawful (lane : InLaneId) (s : State) : Lawful b s (laneLossStep lane s) := by
  unfold laneLossStep
  split
  · exact (modInLane_lawful {}).trans (event_lawful (Lawful.foldl (fun t v => sourceLost_lawful v t) _ _))
  · exact Lawful.refl s

theorem laneBack_lawful (lane : InLaneId) (s : State) : Lawful b s (laneBack lane s) := by
  unfold laneBack
  split
  · exact (modInLane_lawful {}).trans (Lawful.foldl (fun t v => sourceBack_lawful v t) _ _)
  · exact Lawful.refl s

theorem clockCell_lawful (v : SvcId) (c : Cell) (s : State) : Lawful b s (clockCell v c s) := by
  have spliced : Lawful b s (if c.isSplice then clockSource (.splicePoints v) s else s) := by
    split
    · exact clockSource_lawful _ s
    · exact Lawful.refl s
  unfold clockCell
  dsimp only
  split
  · exact spliced.trans (clockSource_lawful _ _)
  · exact spliced

theorem mediaCell_lawful (r : RouteId) (c : Cell) (s : State) : Lawful b s (mediaCell r c s) := by
  unfold mediaCell
  split
  · exact offer_lawful r c s
  · split
    · exact offer_lawful r c s
    · exact ((oneEvent_lawful (networkCell_lawful _ r c s)).trans (settleTallies_lawful _)).trans
        (clockCell_lawful _ c _)

theorem reserved_intake (s : State) (i : Intake) (l : List Intake) (h : ChannelId) :
    reserved { s with intake := l ++ [i] } h = reserved { s with intake := l } h + (decide (i.ch = h)).toNat := by
  cases e : decide (i.ch = h) <;> simp [reserved, e]

/-- A control cell taken in has its reserved queue cell among the 16 of its channel (R173). -/
theorem intakeCell_lawful {c : Bool} (h : ChannelId) (cell : Cell) (s : State) :
    Lawful ⟨c, true⟩ s (intakeCell h cell s) := by
  unfold intakeCell
  split
  · next room =>
    exact
      { queues := fun hq i => by
          have := hq i
          show (s.channel i).queue.length + reserved { s with intake := s.intake ++ [_] } i ≤ 16
          rw [reserved_intake]
          show (s.channel i).queue.length + (reserved s i + (decide (h = i)).toNat) ≤ 16
          by_cases e : h = i
          · subst e
            simpa [Nat.add_assoc, Config.queueCells] using Nat.succ_le_of_lt room
          · simpa [e] using this
        responses := fun e => (nomatch e)
        flags := fun _ => FlagsKept.refl s }
  · exact modChannel_lawful { overrun := fun _ => by simp [sat16] }

theorem routeCell_lawful {c : Bool} (lane : InLaneId) (cell : Cell) (s : State) :
    Lawful ⟨c, true⟩ s (routeCell lane cell s) := by
  unfold routeCell
  split
  · exact Lawful.refl s
  · exact countUnrouted_lawful lane s
  · split
    · exact intakeCell_lawful _ cell s
    · exact countUnrouted_lawful lane s
  · split
    · exact mediaCell_lawful _ cell s
    · exact countUnrouted_lawful lane s

theorem arrival_lawful {c : Bool} (lane : InLaneId) (bytes : List Byte) (s : State) :
    Lawful ⟨c, true⟩ s (arrival lane bytes s) := by
  have arrived : Lawful ⟨c, true⟩ s (s.modInLane lane (fun x => { x with lastArrival := some s.now })) :=
    modInLane_lawful {}
  unfold arrival
  dsimp only
  split
  · split
    · exact arrived.trans (countUnrouted_lawful lane _)
    · exact ((arrived.trans (laneBack_lawful lane _)).trans (routeCell_lawful lane _ _)).trans
        (finishFrom_lawful _ _)
  · exact Lawful.refl s

/-! ### The timer -/

theorem backstopCheck_lawful (v : SvcId) (s : State) : Lawful b s (backstopCheck v s) := by
  unfold backstopCheck
  split
  · exact event_lawful (backstopStep_lawful v s)
  · exact Lawful.refl s

theorem holdCheck_lawful (v : SvcId) (s : State) : Lawful b s (holdCheck v s) := by
  unfold holdCheck
  split
  · exact modSvc_lawful {}
  · exact Lawful.refl s

theorem leaseCheck_lawful (a : AlertId) (s : State) : Lawful b s (leaseCheck a s) := by
  unfold leaseCheck
  split
  · exact (lapse_lawful a s).trans (finishFrom_lawful s _)
  · exact Lawful.refl s

theorem runDue_lawful (d : Due) (s : State) : Lawful b s (runDue d s) := by
  cases d with
  | debounce n => exact (debounceStep_lawful n s).trans (finish_lawful _)
  | laneLoss lane => exact laneLossStep_lawful lane s
  | backstop v => exact backstopCheck_lawful v s
  | hold v => exact holdCheck_lawful v s
  | lease a => exact leaseCheck_lawful a s
  | window n => exact beginWindow_lawful n s
  | clock c => exact expiryStep_lawful c s
  | pulse c => exact pulseStep_lawful c s

theorem takeDue_lawful (d : Due) (s : State) : Lawful b s (takeDue d s) := by
  rcases takeDue_cases d s with ⟨-, h⟩ | ⟨-, h⟩
  · rw [h]; exact Lawful.rest.trans (runDue_lawful d _)
  · rw [h]; exact Lawful.refl s

theorem takeExpiry_lawful (c : CounterId) (s : State) : Lawful b s (takeExpiry c s) := by
  unfold takeExpiry
  split
  · exact takeDue_lawful _ s
  · exact takeDue_lawful _ s

theorem settleDue_lawful (s : State) : Lawful b s (settleDue s) :=
  Lawful.rest.trans (Lawful.foldl (fun t d => whole_lawful (runDue_lawful d t)) _ _)

theorem settlePositions_lawful (n : OutLaneId) : ∀ (k : Nat) (s : State), Lawful b s (settlePositions n k s)
  | 0, s => Lawful.refl s
  | k + 1, s => by
    unfold settlePositions
    split
    · exact (positionStep_lawful n s).trans (settlePositions_lawful n k _)
    · exact Lawful.refl s

theorem settleLanes_lawful (s : State) : Lawful b s (settleLanes s) :=
  Lawful.foldl (fun t n => settlePositions_lawful n _ t) _ s

theorem settleMs_lawful (s : State) : Lawful b s (settleMs s) :=
  ((settleDue_lawful s).trans (settleLanes_lawful _)).trans (settleDue_lawful _)

theorem windowTick_lawful (s : State) : Lawful b s (windowTick s) := by
  unfold windowTick
  split
  · exact Lawful.rest
  · exact Lawful.refl s

theorem tickBody_lawful (pins : BitVec 8) (s : State) : Lawful b s (tickBody pins s) := by
  have sampled : Lawful b s ((List.finRange 8).foldl (sampleLine pins) (s.modPort (fun p => { p with duty := 0 }))) :=
    (modPort_lawful id).trans (Lawful.foldl (sampleLine_lawful pins) _ _)
  unfold tickBody
  dsimp only
  generalize (List.finRange 8).foldl (sampleLine pins) (s.modPort (fun p => { p with duty := 0 })) = t at sampled ⊢
  have due : Lawful b t { t with due := t.due ++ dueAtTick t } := Lawful.rest
  exact (((sampled.trans due).trans (windowTick_lawful _)).trans (Lawful.foldl clockMs_lawful _ _)).trans
    (portTest_lawful _)

theorem tick_lawful (pins : BitVec 8) (s : State) : Lawful b s (tick pins s) :=
  ((settleMs_lawful s).trans Lawful.rest).trans (tickBody_lawful pins _)

/-! ### The writes of the tables -/

/-- A write of an entry is lawful if its effects are, once every check has passed. -/
theorem checked_lawful {checks : List (Bool × Code)} {s t : State}
    (h : (∀ x ∈ checks, x.1 = false) → Lawful b s t) : Lawful b s (checked checks s t).1 := by
  rcases checked_cases checks s t with ⟨c, -, e⟩ | ⟨pass, e⟩
  · rw [e]; exact Lawful.refl s
  · rw [e]; exact h pass

theorem atIndex_lawful {n i : Nat} {s : State} {f : Fin n → State × Code} (h : ∀ k, Lawful b s (f k).1) :
    Lawful b s (atIndex n i s f).1 := by
  unfold atIndex
  split
  · exact h _
  · exact Lawful.refl s

/-- No entry but the one written clashes with it. -/
theorem indices_ne_nil {α : Type} {n : Nat} {t : Tbl α n} {p : Fin n → α → Bool}
    (h : (!(t.indices p).isEmpty) = false) (i : Fin n) : p i (t.get i) = false :=
  (Tbl.indices_isEmpty t p).1 (by simpa using h) i

/-- Two entries of a table stand apart, if the one changed stands apart from every other and the rest did before. -/
theorem apart_put {α : Type} {n : Nat} {t : Tbl α n} {k : Fin n} {x : α} {P : α → α → Prop}
    (symm : ∀ a c, P a c → P c a) (new : ∀ i, i ≠ k → P (t.get i) x)
    (old : ∀ i j, i ≠ j → P (t.get i) (t.get j)) :
    ∀ i j, i ≠ j → P ((t.put k x).get i) ((t.put k x).get j) := by
  intro i j hij
  rw [Tbl.get_put, Tbl.get_put]
  split
  · next hi =>
    rw [if_neg (fun hj : j = k => hij (hi.trans hj.symm))]
    exact symm _ _ (new j (fun hj => hij (hi.trans hj.symm)))
  · next hi =>
    split
    · exact new i hi
    · exact old i j hij

/-- Two routes, if both are ACTIVE, share no in pair, no out pair and no service (R13). -/
def Route.apart (x y : Route) : Prop :=
  x.state = .active → y.state = .active →
    ¬(x.inLane = y.inLane ∧ x.inTag = y.inTag) ∧ ¬(x.outLane = y.outLane ∧ x.outTag = y.outTag) ∧
      ¬(x.service.isSome ∧ x.service = y.service)

theorem Route.apart_symm (x y : Route) (h : x.apart y) : y.apart x := by
  intro hy hx
  obtain ⟨h1, h2, h3⟩ := h hx hy
  refine ⟨fun e => h1 ⟨e.1.symm, e.2.symm⟩, fun e => h2 ⟨e.1.symm, e.2.symm⟩, fun e => h3 ⟨?_, e.2.symm⟩⟩
  rw [← e.2]
  exact e.1

/-- A channel and a route, if the one is enabled and the other ACTIVE, do not share the response pair (R13, R172). -/
def Channel.apartFrom (c : Channel) (x : Route) : Prop :=
  c.enabled = true → x.state = .active → ¬(c.respLane = x.outLane ∧ c.respTag = x.outTag)

/-- Two channels, if both are enabled, share no listening pair and no response pair (R172). -/
def Channel.apart (x y : Channel) : Prop :=
  x.enabled = true → y.enabled = true →
    ¬(x.inLane = y.inLane ∧ x.inTag = y.inTag) ∧ ¬(x.respLane = y.respLane ∧ x.respTag = y.respTag)

theorem Channel.apart_symm (x y : Channel) (h : x.apart y) : y.apart x := by
  intro hy hx
  obtain ⟨h1, h2⟩ := h hx hy
  exact ⟨fun e => h1 ⟨e.1.symm, e.2.symm⟩, fun e => h2 ⟨e.1.symm, e.2.symm⟩⟩

/-- One route stored in place of another: the laws hold if it stands apart from the others and fits its lane. -/
theorem putRoute_lawful {s : State} {r : RouteId} {x : Route} (routes : ∀ i, i ≠ r → (s.route i).apart x)
    (channels : ∀ h, (s.channel h).apartFrom x)
    (fits : ∀ n, LoadingLimit s →
      allottedBut s n (some r) + (if x.state = .active ∧ x.outLane = n then x.allotment else 0) + 1 ≤
        (s.outLane n).capacity)
    (overflow : (s.route r).overflow ≤ 65535 → x.overflow ≤ 65535) :
    Lawful b s (s.modRoute r (fun _ => x)) where
  streams := fun ⟨hr, ha, hc⟩ =>
    ⟨apart_put (P := Route.apart) Route.apart_symm routes hr,
      fun h => Tbl.forall_put (P := (s.channel h).apartFrom) (channels h) (ha h), hc⟩
  loading := fun hl n => by
    obtain ⟨h1, h2, -⟩ := hl n
    refine ⟨h1, h2, le_trans (le_of_eq ?_) (fits n hl)⟩
    simp only [allotted, allottedBut_eq_sum]
    rw [Fintype.sum_eq_add_sum_compl r, Fintype.sum_eq_add_sum_compl (a := r)
      (f := fun i => if (s.route i).state = .active ∧ (s.route i).outLane = n ∧ some i ≠ some r
        then (s.route i).allotment else 0)]
    have others : ∀ i ∈ ({r}ᶜ : Finset RouteId),
        (if ((s.modRoute r fun _ => x).route i).state = .active ∧ ((s.modRoute r fun _ => x).route i).outLane = n ∧
          some i ≠ none then ((s.modRoute r fun _ => x).route i).allotment else 0) =
        if (s.route i).state = .active ∧ (s.route i).outLane = n ∧ some i ≠ some r
          then (s.route i).allotment else 0 := by
      intro i hi
      have hne : i ≠ r := by simpa using hi
      simp [State.modRoute_ne s _ hne, hne]
    rw [Finset.sum_congr rfl others]
    simp
    omega
  counts := fun ⟨hi, hr, ho⟩ =>
    ⟨hi, Tbl.forall_put (P := fun y : Route => y.overflow ≤ 65535) (overflow (hr r)) hr, ho⟩
  flags := fun _ => FlagsKept.refl s

end
end Sys2Proof.Machine
end

section
/-!
PROOFS. The writes, RESTART, the records of a control cell and so every command are lawful; every step keeps the laws.
-/
namespace Sys2Proof.Machine
set_option Elab.async false

section
variable {b : Leeway}

/-! ### The writes of the tables -/

theorem allottedBut_le (s : State) (n : OutLaneId) (skip : Option RouteId) : allottedBut s n skip ≤ allotted s n := by
  simp only [allotted, allottedBut_eq_sum]
  refine Finset.sum_le_sum fun i _ => ?_
  split
  · next h => rw [if_pos ⟨h.1, h.2.1, nofun⟩]
  · exact Nat.zero_le _

/-- What the checks of a ROUTE write have found of the entry stored: it stands apart from the other routes and from the
channels, and its lane has room for it (R13, R14). -/
theorem putRoute_of_checks {s : State} {r : RouteId} {x : Route} (clash : routeClash s r x = false)
    (load : routeOverload s r x = false) (overflow : (s.route r).overflow ≤ 65535 → x.overflow ≤ 65535) (m : Bool) :
    Lawful b s (s.modRoute r (fun _ => { x with restartMark := m })) := by
  simp only [routeClash, Bool.or_eq_false_iff] at clash
  obtain ⟨routes, channels⟩ := clash
  have routes := indices_ne_nil routes
  have channels := indices_ne_nil channels
  simp only [decide_eq_false_iff_not, Bool.and_eq_false_iff] at routes channels
  refine putRoute_lawful (fun i hi hy hx => ?_) (fun h he hx e => ?_) (fun n hl => ?_) overflow
  · refine ⟨fun e => routes i ⟨hi, hy, .inl e⟩, fun e => routes i ⟨hi, hy, .inr (.inl e)⟩, fun e => routes i ?_⟩
    have service : (s.route i).service = x.service := e.2
    exact ⟨hi, hy, .inr (.inr ⟨service ▸ e.1, e.2⟩)⟩
  · rcases channels h with h' | h'
    · exact absurd he (by simpa [State.channel] using h')
    · exact h' e
  · simp only [routeOverload, decide_eq_false_iff_not, Nat.not_lt] at load
    obtain ⟨h1, h2, h3⟩ := hl n
    have := allottedBut_le s n (some r)
    split
    · next e =>
      have lane : x.outLane = n := e.2
      subst lane
      show allottedBut s x.outLane (some r) + x.allotment + 1 ≤ (s.outLane x.outLane).capacity
      omega
    · omega

theorem storeRoute_lawful {s : State} {r : RouteId} {x : Route} (clash : routeClash s r x = false)
    (load : routeOverload s r x = false) (overflow : (s.route r).overflow ≤ 65535 → x.overflow ≤ 65535) :
    Lawful b s (storeRoute r x s) := by
  unfold storeRoute
  dsimp only
  split
  · exact (putRoute_of_checks clash load overflow _).trans (purge_lawful r (s.route r).outLane _)
  · exact putRoute_of_checks clash load overflow _

theorem freeRoute_lawful (r : RouteId) (g : Fin 4) (s : State) : Lawful b s (freeRoute r g s) := by
  have stored : Lawful b s (s.modRoute r (fun _ =>
      { Route.reset with guard := g, continuity := (s.route r).continuity, overflow := (s.route r).overflow })) := by
    refine putRoute_lawful (fun _ _ _ hx => nomatch hx) (fun _ _ hx => nomatch hx) (fun n hl => ?_) id
    have := allottedBut_le s n (some r)
    obtain ⟨-, -, h3⟩ := hl n
    simp only [Route.reset, reduceCtorEq, false_and, if_false]
    omega
  exact stored.trans (purge_lawful r (s.route r).outLane _)

theorem writeRouteActive_lawful (cls : Fin 4) (i : Nat) (w : RouteImg) (s : State) :
    Lawful b s (writeRouteActive cls i w s).1 := by
  refine atIndex_lawful fun r => checked_lawful fun pass => ?_
  simp only [List.forall_mem_cons] at pass
  obtain ⟨-, -, -, -, clash, load, -⟩ := pass
  exact storeRoute_lawful clash load id

theorem writeRouteFree_lawful (cls : Fin 4) (i guard : Nat) (s : State) :
    Lawful b s (writeRouteFree cls i guard s).1 :=
  atIndex_lawful fun r => checked_lawful fun _ => freeRoute_lawful r _ s

theorem writeRoute_lawful (cls : Fin 4) (i : Nat) (w : Nat × RouteImg) (s : State) :
    Lawful b s (writeRoute cls i w s).1 := by
  unfold writeRoute
  split
  · exact writeRouteFree_lawful cls i _ s
  · exact writeRouteActive_lawful cls i _ s
  · exact atIndex_lawful fun r => checked_lawful fun _ => Lawful.refl s

theorem configOfImg_inRange (w : ServiceImg) (cls : Fin 4) : CfgInRange (configOfImg w cls) :=
  ⟨Nat.min_le_right _ _, Nat.min_le_right _ _, Nat.min_le_right _ _, Nat.min_le_right _ _, Nat.min_le_right _ _⟩

theorem moveService_lawful (v : SvcId) (network : Bool) (s : State) : Lawful b s (moveService v network s) := by
  unfold moveService
  split
  · exact modSvc_lawful { shedLevel := fun _ => Nat.zero_le _, shedPattern := fun _ => Nat.zero_le _ }
  · exact (leaveWait_lawful s _).trans (modSvc_lawful {})
  · exact Lawful.refl s

theorem writeService_lawful (cls : Fin 4) (i state : Nat) (w : ServiceImg) (s : State) :
    Lawful b s (writeService cls i state w s).1 :=
  atIndex_lawful fun v => checked_lawful fun _ =>
    (modSvc_lawful { cfg := fun _ => configOfImg_inRange w cls }).trans (moveService_lawful v _ _)

theorem storeEvent_lawful (e : EventId) (x : Event) (s : State) : Lawful b s (storeEvent e x s) := by
  unfold storeEvent
  dsimp only
  split
  · exact modEvent_lawful.trans setList_lawful
  · exact modEvent_lawful

theorem writeEvent_lawful (cls : Fin 4) (i : Nat) (w : EventImg) (s : State) : Lawful b s (writeEvent cls i w s).1 :=
  atIndex_lawful fun e => checked_lawful fun _ => storeEvent_lawful e _ s

theorem writeClip_lawful (cls : Fin 4) (i : Nat) (w : ClipImg) (s : State) : Lawful b s (writeClip cls i w s).1 :=
  atIndex_lawful fun _ => checked_lawful fun _ => Lawful.rest

theorem writeWindow_lawful (cls : Fin 4) (i : Nat) (w : WindowImg) (s : State) :
    Lawful b s (writeWindow cls i w s).1 :=
  atIndex_lawful fun _ => checked_lawful fun _ => Lawful.rest

theorem writeAlert_lawful (cls : Fin 4) (i : Nat) (w : AlertImg) (s : State) : Lawful b s (writeAlert cls i w s).1 :=
  atIndex_lawful fun _ => checked_lawful fun _ => modAlert_lawful {}

theorem writeCounter_lawful (cls : Fin 4) (i : Nat) (w : CounterImg) (s : State) :
    Lawful b s (writeCounter cls i w s).1 := by
  refine atIndex_lawful fun c => checked_lawful fun pass => modCounter_lawful fun _ => ?_
  simp only [List.forall_mem_cons] at pass
  obtain ⟨-, stopped, fields, -⟩ := pass
  simp only [counterFieldBad, Bool.or_eq_false_iff, decide_eq_false_iff_not] at fields
  obtain ⟨⟨⟨⟨-, low⟩, high⟩, -⟩, -⟩ := fields
  exact ⟨Nat.one_le_iff_ne_zero.2 low, Nat.not_lt.1 high, fun run => absurd run (by simp [stopped])⟩

theorem turnLine_lawful (n : LineId) (old new : Direction) (s : State) : Lawful b s (turnLine n old new s) := by
  unfold turnLine
  split
  · exact Lawful.refl s
  · exact modLine_lawful id
  · exact (modLine_lawful id).trans (drive_lawful n _ _)

theorem writeCueline_lawful (cls : Fin 4) (i : Nat) (w : CueLineImg) (s : State) :
    Lawful b s (writeCueline cls i w s).1 := by
  refine atIndex_lawful fun n => ?_
  split
  · exact Lawful.refl s
  · exact (modLine_lawful fun _ => Nat.min_le_right _ _).trans (turnLine_lawful n _ _ _)
  · exact Lawful.refl s

theorem channelOfImg_queue (w : ChannelImg) (old : Channel) : (channelOfImg w old).queue.length ≤ old.queue.length := by
  unfold channelOfImg
  dsimp only
  split
  · exact le_refl _
  · exact Nat.zero_le _

theorem channelOfImg_overrun (w : ChannelImg) (old : Channel) : (channelOfImg w old).overrun = old.overrun := by
  unfold channelOfImg
  dsimp only
  split <;> rfl

/-- One channel stored in place of another: the laws hold if it stands apart from the others and from the routes. -/
theorem putChannel_lawful {s : State} {h : ChannelId} {x : Channel} (channels : ∀ i, i ≠ h → (s.channel i).apart x)
    (routes : ∀ r, x.apartFrom (s.route r)) (queue : x.queue.length ≤ (s.channel h).queue.length)
    (overrun : x.overrun = (s.channel h).overrun) : Lawful b s (s.modChannel h (fun _ => x)) where
  streams := fun ⟨hr, ha, hc⟩ =>
    ⟨hr, Tbl.forall_put (P := fun y : Channel => ∀ r, y.apartFrom (s.route r)) routes ha,
      apart_put (P := Channel.apart) Channel.apart_symm channels hc⟩
  counts := fun ⟨hi, hr, ho, hc, hv⟩ =>
    ⟨hi, hr, ho, Tbl.forall_put (P := fun y : Channel => y.overrun ≤ 65535) (overrun ▸ hc h) hc, hv⟩
  flags := fun _ => FlagsKept.refl s
  queues := fun hq i => (Nat.add_le_add_right
    (Tbl.rel_put (R := fun y z : Channel => z.queue.length ≤ y.queue.length) (fun _ => le_refl _) queue i) _).trans (hq i)
  responses := fun _ i => Nat.add_le_add_right
    (Tbl.rel_put (R := fun y z : Channel => z.queue.length ≤ y.queue.length) (fun _ => le_refl _) queue i) _

/-- An enabled channel that passes its check stands apart from the other channels and the routes (R172). -/
theorem channel_of_checks {s : State} {h : ChannelId} {x : Channel} (clash : channelClash s h x = false) :
    (∀ i, i ≠ h → (s.channel i).apart x) ∧ ∀ r, x.apartFrom (s.route r) := by
  simp only [channelClash, Bool.and_eq_false_iff, Bool.or_eq_false_iff] at clash
  constructor
  · intro i hi he hx
    obtain ⟨channels, -⟩ := clash.resolve_left (by simp [hx])
    have := indices_ne_nil channels i
    simp only [Bool.and_eq_false_iff, decide_eq_false_iff_not] at this
    have apart := this.resolve_left (by simpa [hi, State.channel] using he)
    exact ⟨fun e => apart (.inl e), fun e => apart (.inr e)⟩
  · intro r hx hr e
    obtain ⟨-, routes⟩ := clash.resolve_left (by simp [hx])
    have := indices_ne_nil routes r
    simp only [decide_eq_false_iff_not] at this
    exact this ⟨hr, e.1.symm, e.2.symm⟩

theorem writeChannel_lawful (cls : Fin 4) (i : Nat) (w : ChannelImg) (s : State) :
    Lawful b s (writeChannel cls i w s).1 := by
  refine atIndex_lawful fun h => checked_lawful fun pass => ?_
  simp only [List.forall_mem_cons] at pass
  obtain ⟨-, -, clash, -⟩ := pass
  obtain ⟨channels, routes⟩ := channel_of_checks clash
  exact putChannel_lawful channels routes (channelOfImg_queue w _) (channelOfImg_overrun w _)

theorem writeInlane_lawful (cls : Fin 4) (i timeout : Nat) (s : State) :
    Lawful b s (writeInlane cls i timeout s).1 := by
  refine atIndex_lawful fun n => checked_lawful fun _ => modInLane_lawful { timeout := fun _ => ?_ }
  simp only [clamp]
  omega

theorem writeOutlane_lawful (cls : Fin 4) (i capacity : Nat) (s : State) :
    Lawful b s (writeOutlane cls i capacity s).1 := by
  refine atIndex_lawful fun n => checked_lawful fun pass => ?_
  simp only [List.forall_mem_cons] at pass
  obtain ⟨-, range, fits, -⟩ := pass
  rw [decide_eq_false_iff_not] at range fits
  exact
    { loading := fun hl m => by
        by_cases e : m = n
        · subst e
          rw [State.modOutLane_self]
          show 16 ≤ capacity ∧ capacity ≤ 1024 ∧ allotted s m + 1 ≤ capacity
          omega
        · rw [State.modOutLane_ne s _ e]
          exact hl m
      fifos := fun hf => Tbl.forall_put (P := fun y : OutLane => y.fifo.length ≤ 256) (hf n) hf
      counts := fun ⟨hi, hr, ho, hc⟩ =>
        ⟨hi, hr, Tbl.forall_put (P := fun y : OutLane => y.overflow ≤ 65535) (ho n) ho, hc⟩
      flags := fun _ => FlagsKept.refl s }

theorem writeStore_lawful (cls : Fin 4) (i : Nat) (w : StoreImg) (s : State) : Lawful b s (writeStore cls i w s).1 := by
  refine atIndex_lawful fun _ => checked_lawful fun _ => (modPort_lawful fun _ => ?_).trans (portTest_lawful _)
  simp only [PortInRange, clamp]
  omega

theorem writeImage_lawful (cls : Fin 4) (t : Table) (i : Nat) (bs : List Byte) (s : State) :
    Lawful b s (writeImage cls t i bs s).1 := by
  cases t with
  | route => exact writeRoute_lawful cls i _ s
  | service => exact writeService_lawful cls i _ _ s
  | event => exact writeEvent_lawful cls i _ s
  | clip => exact writeClip_lawful cls i _ s
  | window => exact writeWindow_lawful cls i _ s
  | slot => exact Lawful.refl s
  | alert => exact writeAlert_lawful cls i _ s
  | counter => exact writeCounter_lawful cls i _ s
  | cueline => exact writeCueline_lawful cls i _ s
  | channel => exact writeChannel_lawful cls i _ s
  | inlane => exact writeInlane_lawful cls i _ s
  | outlane => exact writeOutlane_lawful cls i _ s
  | store => exact writeStore_lawful cls i _ s
  | log => exact Lawful.refl s
  | part => exact Lawful.refl s

/-! ### RESTART -/

theorem restartService_lawful (s : State) (v : SvcId) : Lawful b s (restartService s v) := by
  have step (st : SvcState) (nm : Bool) (d : Bool) (h : (s.svc v).dark = true → d = true) :
      SvcStep (s.svc v) { (s.svc v).restarted with state := st, networkMark := nm, dark := d } :=
    { shedLevel := fun _ => Nat.zero_le _, shedPattern := fun _ => Nat.zero_le _, dark := h }
  unfold restartService
  dsimp only
  split
  · exact modSvc_lawful (step _ _ _ id)
  · exact modSvc_lawful (step _ _ _ (fun e => by simp [e]))
  · exact modSvc_lawful (step _ _ _ (fun e => by simp [e]))

theorem restartEvent_lawful (s : State) (e : EventId) : Lawful b s (restartEvent s e) := by
  unfold restartEvent
  split
  · exact closeEvent_lawful e _ _ s
  · exact closeEvent_lawful e _ _ s
  · exact Lawful.refl s

theorem portTest_inRange {s : State} (h : PortInRange s.port) : PortInRange (portTest s).port := by
  rcases portTest_cases s with ⟨e, -⟩ | ⟨e, -, -⟩
  · rw [e]; exact h
  · rw [e]; exact h

theorem endTenure_inRange {s : State} (h : PortInRange s.port) : PortInRange (endTenure s).port := by
  rcases endTenure_cases s with ⟨-, e⟩ | ⟨-, e⟩
  · rw [e]; exact h
  · rw [e]; exact portTest_inRange h

theorem restartStorePort_lawful (s : State) : Lawful b s (restartStorePort s) := by
  rcases restartStorePort_cases s with ⟨-, h⟩ | ⟨-, -, -, h | h⟩
  · rw [h]; exact modPort_lawful id
  · rw [h]; exact port_lawful id
  · rw [h]; exact port_lawful fun hp => endTenure_inRange hp

theorem restartBlocks_lawful (s : State) : Lawful b s (restartBlocks s) := by
  have services : Lawful b s ((List.finRange 64).foldl restartService s) := Lawful.foldl restartService_lawful _ s
  unfold restartBlocks
  generalize (List.finRange 64).foldl restartService s = t at services ⊢
  have slots : Lawful b t { t with slots := Vector.replicate 16 Slot.reset } :=
    slots_lawful fun k => by rw [Tbl.get_replicate]; exact reset_step _
  have outLanes (u : State) :
      Lawful b u { u with outLanes := u.outLanes.map (fun o => { o with held := Vector.replicate 64 false }) } :=
    outLanes_lawful fun n => by rw [Tbl.get_map]; exact {}
  have alerts (u : State) : Lawful b u { u with alerts := u.alerts.map Alert.restarted } :=
    alerts_lawful fun a => by rw [Tbl.get_map]; exact { bare := fun _ _ => ⟨rfl, rfl⟩ }
  have counters (u : State) :
      Lawful b u { u with counters := u.counters.map (fun c => { c with running := false }) } :=
    counters_lawful fun c h => by rw [Tbl.get_map]; exact ⟨h.1, h.2.1, nofun⟩
  exact services.trans ((((slots.trans (outLanes _)).trans (alerts _)).trans (counters _)).trans
    (Lawful.rest.trans (restartStorePort_lawful _)))

theorem restartPart_lawful (s : State) : Lawful b s (restartPart s) :=
  ((oneEvent_lawful (Lawful.foldl restartEvent_lawful _ s)).trans (restartBlocks_lawful _)).trans
    (settleTallies_lawful _)

/-! ### The records of a control cell -/

theorem refuseIf_lawful {bad : Bool} {c : Code} {s : State} {r : Answered} (h : Lawful b s r.1) :
    Lawful b s (refuseIf bad c s r).1 := by
  cases bad
  · exact h
  · exact Lawful.refl s

/-- What a record does to the part, whatever its result. -/
theorem answered_lawful {s t : State} {r : Result} (h : Lawful b s t) : Lawful b s ((t, r) : Answered).1 := h

theorem entryAt_lawful {n i : Nat} {s : State} {f : Fin n → Answered} (h : ∀ k, Lawful b s (f k).1) :
    Lawful b s (entryAt n i s f).1 := by
  unfold entryAt
  split
  · exact h _
  · exact Lawful.refl s

theorem doRead_lawful (x : Ctx) (table i : Nat) (fields : List Byte) (s : State) :
    Lawful b s (doRead x table i fields s).1 := by
  unfold doRead
  split
  · exact Lawful.refl s
  · exact refuseIf_lawful (refuseIf_lawful (refuseIf_lawful (Lawful.refl s)))

theorem doPoint_lawful (x : Ctx) (table i : Nat) (s : State) : Lawful b s (doPoint x table i s).1 := by
  unfold doPoint
  split
  · exact Lawful.refl s
  · exact refuseIf_lawful (answered_lawful (modChannel_lawful {}))

theorem doWrite_lawful (x : Ctx) (table i : Nat) (fields : List Byte) (s : State) :
    Lawful b s (doWrite x table i fields s).1 := by
  unfold doWrite
  split
  · exact Lawful.refl s
  · exact refuseIf_lawful (refuseIf_lawful (refuseIf_lawful (writeImage_lawful _ _ _ _ s)))

theorem advanceCursorOf_lawful (h : ChannelId) (t : Table) (i : Nat) (s : State) :
    Lawful b s (advanceCursorOf h t i s) := modChannel_lawful {}

theorem doPut_lawful (x : Ctx) (fields : List Byte) (s : State) : Lawful b s (doPut x fields s).1 := by
  unfold doPut
  split
  · exact Lawful.refl s
  · refine refuseIf_lawful (refuseIf_lawful ?_)
    split
    · exact advanceCursorOf_lawful _ _ _ s
    · exact (writeImage_lawful _ _ _ _ s).trans (advanceCursorOf_lawful _ _ _ _)

theorem doGet_lawful (x : Ctx) (fields : List Byte) (s : State) : Lawful b s (doGet x fields s).1 := by
  unfold doGet
  split
  · exact Lawful.refl s
  · refine refuseIf_lawful (refuseIf_lawful ?_)
    split
    · exact Lawful.refl s
    · exact advanceCursorOf_lawful _ _ _ s

theorem cancelEvent_lawful (e : EventId) (s : State) : Lawful b s (cancelEvent e s) := by
  unfold cancelEvent
  split
  · exact closeScheduled_lawful e _ _ s
  · exact endCueing_lawful e _ _ s
  · split
    · exact Lawful.refl s
    · exact earlyEnd_lawful e _ _ s
  · exact Lawful.refl s

theorem doSpliceNow_lawful (x : Ctx) (i : Nat) (s : State) : Lawful b s (doSpliceNow x i s).1 :=
  entryAt_lawful fun e => refuseIf_lawful (refuseIf_lawful
    (answered_lawful ((oneEvent_lawful (spliceEvent_lawful e s)).trans (finish_lawful _))))

theorem doCancel_lawful (x : Ctx) (i : Nat) (s : State) : Lawful b s (doCancel x i s).1 :=
  entryAt_lawful fun e => 
    refuseIf_lawful (refuseIf_lawful (answered_lawful (event_lawful (cancelEvent_lawful e s))))

theorem live_iff (s : State) (a : AlertId) : s.live a = true ↔ (s.alert a).state ≠ .idle := decide_eq_true_iff

theorem doAlertOn_lawful (x : Ctx) (i : Nat) (s : State) : Lawful b s (doAlertOn x i s).1 := by
  refine entryAt_lawful fun a => refuseIf_lawful ?_
  split
  · next live => exact renewLease_lawful ((live_iff s a).1 live)
  · exact refuseIf_lawful (refuseIf_lawful (answered_lawful ((activate_lawful a s).trans (finishFrom_lawful s _))))

theorem doAlertRenew_lawful (x : Ctx) (i : Nat) (s : State) : Lawful b s (doAlertRenew x i s).1 := by
  refine entryAt_lawful fun a => refuseIf_lawful ?_
  cases live : s.live a
  · exact Lawful.refl s
  · exact renewLease_lawful ((live_iff s a).1 live)

theorem doAlertOff_lawful (x : Ctx) (i : Nat) (s : State) : Lawful b s (doAlertOff x i s).1 :=
  entryAt_lawful fun a => refuseIf_lawful (refuseIf_lawful
    (answered_lawful ((endChannel_lawful a s).trans (finishFrom_lawful s _))))

theorem doCounterStart_lawful (x : Ctx) (i : Nat) (s : State) : Lawful b s (doCounterStart x i s).1 :=
  entryAt_lawful fun _ => refuseIf_lawful
    (answered_lawful (modCounter_lawful fun h => ⟨h.1, h.2.1, fun _ => ⟨h.1, le_refl _⟩⟩))

theorem stopCounter_lawful (c : CounterId) (s : State) : Lawful b s (stopCounter c s) := by
  refine Lawful.trans (modCounter_lawful fun h => ?_) (dropClocks_lawful _ c)
  exact ⟨h.1, h.2.1, nofun⟩

theorem doCounterStop_lawful (x : Ctx) (i : Nat) (s : State) : Lawful b s (doCounterStop x i s).1 :=
  entryAt_lawful fun c => refuseIf_lawful (answered_lawful (stopCounter_lawful c s))

theorem doTakeLog_lawful (x : Ctx) (s : State) : Lawful b s (doTakeLog x s).1 := by
  unfold doTakeLog
  split
  · exact Lawful.refl s
  · exact refuseIf_lawful (refuseIf_lawful (answered_lawful Lawful.rest))

theorem doRestart_lawful (x : Ctx) (i : Nat) (s : State) : Lawful b s (doRestart x i s).1 :=
  entryAt_lawful fun _ => refuseIf_lawful (answered_lawful (restartPart_lawful s))

theorem clearBit_le {mask bit n m : Nat} (h : n ≤ m) : clearBit mask bit 0 n ≤ m := by
  unfold clearBit
  split
  · exact Nat.zero_le _
  · exact h

theorem modAt_lawful {n i : Nat} {s : State} {f : Fin n → State} (h : ∀ k, Lawful b s (f k)) :
    Lawful b s (modAt n i s f) := by
  unfold modAt
  split
  · exact h _
  · exact Lawful.refl s

/-- A CLEAR of a service's items keeps every law but the flags. -/
theorem clearService_lawful {q : Bool} (v : SvcId) (m : Nat) (s : State) :
    Lawful ⟨true, q⟩ s (s.modSvc v (Service.cleared m)) where
  settings := fun ⟨hi, hp, hl, hc⟩ =>
    ⟨hi, hp, hl, Tbl.forall_put (P := fun y : Service => CfgInRange y.cfg) (hc v) hc⟩
  shed := fun hs => Tbl.forall_put (P := fun y : Service => y.shedLevel ≤ 7 ∧ y.shedPattern ≤ 7) (hs v) hs
  counts := fun ⟨hi, hr, ho, hc, hv, hk⟩ =>
    ⟨hi, hr, ho, hc, Tbl.forall_put (P := fun y : Service => y.strayCount ≤ 65535 ∧ y.slipCount ≤ 65535)
      ⟨clearBit_le (hv v).1, clearBit_le (hv v).2⟩ hv, hk⟩
  flags := fun e => nomatch e

/-- A CLEAR of an alert channel's items keeps every law but the flags. -/
theorem clearAlert_lawful {q : Bool} (a : AlertId) (m : Nat) (s : State) :
    Lawful ⟨true, q⟩ s (s.modAlert a (Alert.cleared m)) where
  counts := fun ⟨hi, hr, ho, hc, hv, hk, ha⟩ =>
    ⟨hi, hr, ho, hc, hv, hk, Tbl.forall_put (P := fun y : Alert => y.faults ≤ 65535) (ha a) ha⟩
  idle := fun hb => Tbl.forall_put (P := Alert.bare) (hb a) hb
  flags := fun e => nomatch e

theorem clearItems_lawful {q : Bool} (t : Table) (i mask : Nat) (s : State) :
    Lawful ⟨true, q⟩ s (clearItems t i mask s) := by
  unfold clearItems
  split
  · exact modAt_lawful fun k => modRoute_lawful { overflow := clearBit_le }
  · exact modAt_lawful fun k => clearService_lawful k mask s
  · exact modAt_lawful fun k => clearAlert_lawful k mask s
  · exact modAt_lawful fun k => modInLane_lawful { unrouted := clearBit_le }
  · exact modAt_lawful fun k => modOutLane_lawful { overflow := clearBit_le }
  · exact modAt_lawful fun k => modChannel_lawful { overrun := clearBit_le }
  · exact { flags := fun e => nomatch e }
  · exact Lawful.refl s

theorem doClear_lawful {q : Bool} (x : Ctx) (table i : Nat) (fields : List Byte) (s : State) :
    Lawful ⟨true, q⟩ s (doClear x table i fields s).1 := by
  unfold doClear
  split
  · exact Lawful.refl s
  · exact refuseIf_lawful (refuseIf_lawful (refuseIf_lawful (refuseIf_lawful (clearItems_lawful _ _ _ s))))

theorem record_lawful {s : State} {r : Answered} (h : Lawful b s r.1) : Lawful b s (record r) := h.trans Lawful.rest

theorem actionRecord_lawful {want : Table} {r : RawRecord} {s : State} {act : Answered} (h : Lawful b s act.1) :
    Lawful b s (actionRecord want r s act).1 := by
  unfold actionRecord
  split
  · exact Lawful.refl s
  · exact refuseIf_lawful (refuseIf_lawful (refuseIf_lawful h))

theorem pointRecord_lawful (x : Ctx) (r : RawRecord) (s : State) : Lawful b s (pointRecord x r s).1 := by
  unfold pointRecord
  split
  · exact Lawful.refl s
  · exact refuseIf_lawful (refuseIf_lawful (doPoint_lawful x _ _ s))

theorem runRecord_lawful {q : Bool} (x : Ctx) (r : RawRecord) (s : State) :
    Lawful ⟨true, q⟩ s (runRecord x r s).1 := by
  unfold runRecord
  split
  · exact doRead_lawful x _ _ _ s
  · exact doWrite_lawful x _ _ _ s
  · exact pointRecord_lawful x r s
  · exact doPut_lawful x _ s
  · exact doGet_lawful x _ s
  · exact actionRecord_lawful (doSpliceNow_lawful x _ s)
  · exact actionRecord_lawful (doCancel_lawful x _ s)
  · exact actionRecord_lawful (doAlertOn_lawful x _ s)
  · exact actionRecord_lawful (doAlertRenew_lawful x _ s)
  · exact actionRecord_lawful (doAlertOff_lawful x _ s)
  · exact actionRecord_lawful (doCounterStart_lawful x _ s)
  · exact actionRecord_lawful (doCounterStop_lawful x _ s)
  · exact actionRecord_lawful (doTakeLog_lawful x s)
  · exact doClear_lawful x _ _ _ s
  · exact actionRecord_lawful (doRestart_lawful x _ s)
  · exact Lawful.refl s

theorem runRecords_lawful {q : Bool} (ch : ChannelId) (cls : Fin 4) :
    ∀ (room : Nat) (l : List RawRecord) (s : State), Lawful ⟨true, q⟩ s (runRecords ch cls room l s).1
  | _, [], s => Lawful.refl s
  | room, r :: l, s =>
    ((record_lawful (runRecord_lawful ⟨ch, cls, room⟩ r s)).trans (settleFresh_lawful s _)).trans
      (runRecords_lawful ch cls _ l _)

theorem respond_keeps (h : ChannelId) (seq : Nat) (cls : Fin 4) (results : List Result) (s : State) :
    KeepsTables b s (respond h seq cls results s) :=
  channels_keep (Tbl.rel_put (fun _ => {}) {})

theorem respond_responseCells (h : ChannelId) (seq : Nat) (cls : Fin 4) (results : List Result) (s : State)
    (i : ChannelId) :
    responseCells (respond h seq cls results s) i = responseCells s i + (decide (h = i)).toNat := by
  unfold respond responseCells
  by_cases e : h = i
  · subst e
    rw [State.modChannel_self]
    simp [reserved]
    omega
  · rw [State.modChannel_ne s _ (Ne.symm e)]
    simp [e, reserved]

/-- The cell that is answered gives its reserved queue cell to the response (R173, R176). -/
theorem answered_responseCells {s : State} {i : Intake} {rest : List Intake} (h : s.intake = i :: rest)
    (c : ChannelId) :
    responseCells { s with intake := rest } c + (decide (i.ch = c)).toNat = responseCells s c := by
  show (s.channel c).queue.length + (rest.filter (fun x => decide (x.ch = c))).length + (decide (i.ch = c)).toNat =
    (s.channel c).queue.length + (s.intake.filter (fun x => decide (x.ch = c))).length
  rw [h]
  by_cases e : i.ch = c
  · simp [e]; omega
  · simp [e]

theorem executeCell_lawful (s : State) : Lawful ⟨true, true⟩ s (executeCell s) := by
  cases h : s.intake with
  | nil => unfold executeCell; simp only [h]; exact Lawful.refl s
  | cons i rest =>
    obtain ⟨t, seq, results, records, e⟩ : ∃ t seq results, Lawful ⟨true, false⟩ { s with intake := rest } t ∧
        executeCell s = respond i.ch seq i.cls results t := by
      unfold executeCell
      simp only [h]
      split
      · exact ⟨_, _, _, Lawful.refl _, rfl⟩
      · exact ⟨_, _, _, runRecords_lawful i.ch i.cls _ _ _, rfl⟩
    have taken : KeepsTables ⟨true, true⟩ s { s with intake := rest } := { flags := fun e => nomatch e }
    have run : KeepsTables ⟨true, true⟩ { s with intake := rest } t :=
      { records.toKeepsTables with flags := fun e => nomatch e }
    rw [e]
    exact
      { toKeepsTables := (taken.trans run).trans (respond_keeps _ _ _ _ _)
        queues := fun hq c => by
          have fewer := records.responses rfl c
          have moved := answered_responseCells h c
          have bound : responseCells s c ≤ 16 := hq c
          show responseCells _ c ≤ 16
          rw [respond_responseCells]
          omega
        responses := fun e => nomatch e }

end
end Sys2Proof.Machine
end

section
/-!
PROOFS. The laws hold after power-on reset, and every step keeps them.
-/
namespace Sys2Proof.Machine
set_option Elab.async false

/-! ### Reset -/

section
variable (lane : InLaneId) (off : Fin 8)

@[simp] theorem powerOn_inLane (i : InLaneId) : (State.powerOn lane off).inLane i = .reset := Tbl.get_replicate _ i
@[simp] theorem powerOn_route (i : RouteId) : (State.powerOn lane off).route i = .reset := Tbl.get_replicate _ i
@[simp] theorem powerOn_svc (i : SvcId) : (State.powerOn lane off).svc i = .reset := Tbl.get_replicate _ i
@[simp] theorem powerOn_event (i : EventId) : (State.powerOn lane off).event i = .reset := Tbl.get_replicate _ i
@[simp] theorem powerOn_list (i : SvcId) : (State.powerOn lane off).list i = [] := Tbl.get_replicate _ i
@[simp] theorem powerOn_window (i : WindowId) : (State.powerOn lane off).window i = .reset := Tbl.get_replicate _ i
@[simp] theorem powerOn_clip (i : ClipId) : (State.powerOn lane off).clip i = .reset := Tbl.get_replicate _ i
@[simp] theorem powerOn_slot (i : SlotId) : (State.powerOn lane off).slot i = .reset := Tbl.get_replicate _ i
@[simp] theorem powerOn_outLane (i : OutLaneId) : (State.powerOn lane off).outLane i = .reset := Tbl.get_replicate _ i
@[simp] theorem powerOn_alert (i : AlertId) : (State.powerOn lane off).alert i = .reset i := Tbl.get_ofFn _ i
@[simp] theorem powerOn_line (i : LineId) : (State.powerOn lane off).line i = .reset := Tbl.get_replicate _ i
@[simp] theorem powerOn_counter (i : CounterId) : (State.powerOn lane off).counter i = .reset := Tbl.get_replicate _ i

@[simp] theorem powerOn_port : (State.powerOn lane off).port = .reset := rfl
@[simp] theorem powerOn_intake : (State.powerOn lane off).intake = [] := rfl

theorem powerOn_channel (i : ChannelId) :
    (State.powerOn lane off).channel i = if i = 0 then .strapped lane off else .reset := by
  show Tbl.get (Tbl.put (Vector.replicate 4 Channel.reset) 0 _) i = _
  rw [Tbl.get_put, Tbl.get_replicate]

/-- Only channel 0 is enabled after reset. -/
theorem powerOn_enabled {i : ChannelId} (h : ((State.powerOn lane off).channel i).enabled = true) : i = 0 := by
  rw [powerOn_channel] at h
  by_contra ne
  rw [if_neg ne] at h
  exact nomatch h

theorem powerOn_queue (i : ChannelId) : ((State.powerOn lane off).channel i).queue = [] := by
  rw [powerOn_channel]
  split <;> rfl

theorem powerOn_overrun (i : ChannelId) : ((State.powerOn lane off).channel i).overrun = 0 := by
  rw [powerOn_channel]
  split <;> rfl

/-- With every route FREE nothing is allotted. -/
theorem powerOn_allotted (n : OutLaneId) : allotted (State.powerOn lane off) n = 0 := by
  simp [allotted, allottedBut_eq_sum, Route.reset]

theorem powerOn_streams : StreamsUnique (State.powerOn lane off) := by
  refine ⟨fun i j _ h => ?_, fun h i _ hi => ?_, fun h g ne he ge => ?_⟩
  · exact nomatch (powerOn_route lane off i ▸ h)
  · exact nomatch (powerOn_route lane off i ▸ hi)
  · exact absurd ((powerOn_enabled lane off he).trans (powerOn_enabled lane off ge).symm) ne

theorem powerOn_counts : CountsSaturate (State.powerOn lane off) := by
  simp [CountsSaturate, InLane.reset, Route.reset, OutLane.reset, Service.reset, Slot.reset, Alert.reset,
    powerOn_overrun]

theorem powerOn_settings : SettingsInRange (State.powerOn lane off) := by
  simp [SettingsInRange, InLane.reset, CueLine.reset, Service.reset, SvcConfig.reset, Port.reset]

/-- Reset keeps every law, since each holds then. -/
theorem powerOn_lawful (s : State) : Lawful ⟨true, true⟩ s (State.powerOn lane off) where
  streams := fun _ => powerOn_streams lane off
  loading := fun _ n => by simp [powerOn_allotted, OutLane.reset]
  fifos := fun _ n => by simp [OutLane.reset]
  rings := fun _ k => by simp [Slot.reset]
  queues := fun _ h => by simp [powerOn_queue, reserved]
  settings := fun _ => powerOn_settings lane off
  shed := fun _ v => by simp [Service.reset]
  counts := fun _ => powerOn_counts lane off
  counters := fun _ c => by simp [Counter.reset]
  idle := fun _ a => by simp [Alert.reset]
  responses := fun e => nomatch e
  flags := fun e => nomatch e

end

/-! ### Every step -/

/-- What leeway a command needs. -/
def leewayOf (i : Instr) : Leeway := ⟨mayClear i, true⟩

/-- Every command is lawful; only CLEAR, a control cell and reset may clear a flag. -/
theorem exec_lawful (i : Instr) (s : State) : ∃ t, exec i s = .next t ∧ Lawful (leewayOf i) s t := by
  cases i with
  | powerOnReset lane off => exact ⟨_, rfl, (powerOn_lawful lane off s).trans Lawful.rest⟩
  | stationTick pins => exact ⟨_, rfl, tick_lawful pins s⟩
  | debounceEdge n => exact ⟨_, rfl, takeDue_lawful _ s⟩
  | cellArrival lane bytes => exact ⟨_, rfl, arrival_lawful lane bytes s⟩
  | laneLoss lane => exact ⟨_, rfl, takeDue_lawful _ s⟩
  | backstop v => exact ⟨_, rfl, takeDue_lawful _ s⟩
  | clockModelHold v => exact ⟨_, rfl, takeDue_lawful _ s⟩
  | windowStart lane => exact ⟨_, rfl, takeDue_lawful _ s⟩
  | outputPosition lane => exact ⟨_, rfl, positionStep_lawful lane s⟩
  | leaseLapse a => exact ⟨_, rfl, takeDue_lawful _ s⟩
  | counterExpiry c => exact ⟨_, rfl, takeExpiry_lawful c s⟩
  | busGrant busy => exact ⟨_, rfl, (oneEvent_lawful (grantStep_lawful busy s)).trans (finish_lawful _)⟩
  | burstAnswer ack error inhibit data =>
    exact ⟨_, rfl, (oneEvent_lawful (burstAnswerStep_lawful _ data s)).trans (finish_lawful _)⟩
  | backOff => exact ⟨_, rfl, backOffStep_lawful s⟩
  | gapEnd => exact ⟨_, rfl, gapEndStep_lawful s⟩
  | controlCellExecute => exact ⟨_, rfl, executeCell_lawful s⟩
  | read x table index fields => exact ⟨_, rfl, record_lawful (doRead_lawful x table index fields s)⟩
  | point x table index => exact ⟨_, rfl, record_lawful (doPoint_lawful x table index s)⟩
  | put x fields => exact ⟨_, rfl, record_lawful (doPut_lawful x fields s)⟩
  | get x fields => exact ⟨_, rfl, record_lawful (doGet_lawful x fields s)⟩
  | write x table index fields => exact ⟨_, rfl, record_lawful (doWrite_lawful x table index fields s)⟩
  | routeWriteActive x index img => exact ⟨_, rfl, record_lawful (writeRouteActive_lawful x.cls index img s)⟩
  | routeWriteFree x index guard => exact ⟨_, rfl, record_lawful (writeRouteFree_lawful x.cls index guard s)⟩
  | serviceWrite x index state img => exact ⟨_, rfl, record_lawful (writeService_lawful x.cls index state img s)⟩
  | serviceEnable x index img => exact ⟨_, rfl, record_lawful (writeService_lawful x.cls index _ img s)⟩
  | serviceDisable x index img => exact ⟨_, rfl, record_lawful (writeService_lawful x.cls index _ img s)⟩
  | eventWrite x index img => exact ⟨_, rfl, record_lawful (writeEvent_lawful x.cls index img s)⟩
  | clipWrite x index img => exact ⟨_, rfl, record_lawful (writeClip_lawful x.cls index img s)⟩
  | windowWrite x index img => exact ⟨_, rfl, record_lawful (writeWindow_lawful x.cls index img s)⟩
  | alertWrite x index img => exact ⟨_, rfl, record_lawful (writeAlert_lawful x.cls index img s)⟩
  | counterWrite x index img => exact ⟨_, rfl, record_lawful (writeCounter_lawful x.cls index img s)⟩
  | cuelineWrite x index img => exact ⟨_, rfl, record_lawful (writeCueline_lawful x.cls index img s)⟩
  | channelWrite x index img => exact ⟨_, rfl, record_lawful (writeChannel_lawful x.cls index img s)⟩
  | inlaneWrite x index timeout => exact ⟨_, rfl, record_lawful (writeInlane_lawful x.cls index timeout s)⟩
  | outlaneWrite x index capacity => exact ⟨_, rfl, record_lawful (writeOutlane_lawful x.cls index capacity s)⟩
  | storeWrite x index img => exact ⟨_, rfl, record_lawful (writeStore_lawful x.cls index img s)⟩
  | spliceNow x index => exact ⟨_, rfl, record_lawful (doSpliceNow_lawful x index s)⟩
  | cancel x index => exact ⟨_, rfl, record_lawful (doCancel_lawful x index s)⟩
  | alertOn x index => exact ⟨_, rfl, record_lawful (doAlertOn_lawful x index s)⟩
  | alertRenew x index => exact ⟨_, rfl, record_lawful (doAlertRenew_lawful x index s)⟩
  | alertOff x index => exact ⟨_, rfl, record_lawful (doAlertOff_lawful x index s)⟩
  | counterStart x index => exact ⟨_, rfl, record_lawful (doCounterStart_lawful x index s)⟩
  | counterStop x index => exact ⟨_, rfl, record_lawful (doCounterStop_lawful x index s)⟩
  | takeLog x index => exact ⟨_, rfl, record_lawful (doTakeLog_lawful x s)⟩
  | clear x table index fields => exact ⟨_, rfl, record_lawful (doClear_lawful x table index fields s)⟩
  | restart x index => exact ⟨_, rfl, record_lawful (doRestart_lawful x index s)⟩

/-- A step keeps every law, whatever command waits. -/
theorem step_lawful {s t : State} (h : step s = .next t) : ∃ b, Lawful b s t := by
  unfold step at h
  split at h
  · cases h
    exact ⟨⟨false, false⟩, storeClock_lawful s⟩
  · next c rest _ =>
    obtain ⟨u, e, lawful⟩ := exec_lawful c { s with pending := rest }
    cases e.symm.trans h
    exact ⟨_, Lawful.rest.trans lawful⟩

/-! ### The statements -/

/-- Settles O5: a write checks the new entry against all others, and nothing else changes a binding. -/
theorem streamsStayUnique : Obligations.StreamsStayUnique := fun _ _ hs h =>
  have ⟨_, lawful⟩ := step_lawful h
  lawful.streams hs

/-- Settles O6: a ROUTE or OUTLANE write checks the sum, and nothing else changes an allotment or a capacity. -/
theorem loadingLimitStays : Obligations.LoadingLimitStays := fun _ _ hs h =>
  have ⟨_, lawful⟩ := step_lawful h
  lawful.loading hs

/-- Settles O7: each of the three buffers grows only behind the check of its room. -/
theorem buffersStayBounded : Obligations.BuffersStayBounded := by
  refine ⟨fun s t hs h => ?_, fun s t hs h => ?_, fun s t hs h => ?_⟩ <;> obtain ⟨_, lawful⟩ := step_lawful h
  · exact lawful.fifos hs
  · exact lawful.rings hs
  · exact lawful.queues hs

/-- Settles O8: every change of a record keeps the ranges of that record. -/
theorem valuesStayInRange : Obligations.ValuesStayInRange := by
  refine ⟨fun s t hs h => ?_, fun s t hs h => ?_, fun s t hs h => ?_, fun s t hs h => ?_, fun s t hs h => ?_⟩ <;>
    obtain ⟨_, lawful⟩ := step_lawful h
  · exact lawful.settings hs
  · exact lawful.shed hs
  · exact lawful.counts hs
  · exact lawful.counters hs
  · exact lawful.idle hs

/-- Settles O60: no operation but the clearing of items resets a flag. -/
theorem stickyFlagsStaySet : Obligations.StickyFlagsStaySet := by
  intro c s t keep h
  obtain ⟨u, e, lawful⟩ := exec_lawful c s
  cases e.symm.trans h
  exact lawful.flags keep

end Sys2Proof.Machine
end

section
/-!
PROOFS. What every event of the part leaves done: the output lines at their tallies' levels, and the port asking when it
should (R110, R161).
-/
namespace Sys2Proof.Machine
set_option Elab.async false

/-! ### The tallies -/

/-- An OUT line is at the level of its tally source. -/
def LineFollows (s : State) (n : LineId) : Prop :=
  (s.line n).direction = .output →
    (s.line n).sampled = tallyLevel s (s.line n).tally ∧ (s.line n).debounced = tallyLevel s (s.line n).tally

/-- A tally source reads services and alert channels only. -/
theorem tallyLevel_congr {s t : State} (services : ∀ v, (t.svc v).insertingTally = (s.svc v).insertingTally)
    (alerts : ∀ a, t.live a = s.live a) (x : Tally) : tallyLevel t x = tallyLevel s x := by
  cases x with
  | driven0 => rfl
  | driven1 => rfl
  | serviceInserting v => simp only [tallyLevel, services]
  | alertActive a => simp only [tallyLevel, alerts]
  | anyAlert => simp only [tallyLevel, funext alerts]

theorem CueOnly.tallyLevel {s t : State} (h : CueOnly s t) (x : Tally) : tallyLevel t x = tallyLevel s x := by
  obtain ⟨l, c, d, rfl⟩ := h
  exact tallyLevel_congr (fun _ => rfl) (fun _ => rfl) x

theorem clockCounter_lines (c : CounterId) (s : State) : (clockCounter c s).lines = s.lines := by
  unfold clockCounter
  dsimp only
  split_ifs <;> rfl

theorem foldl_lines {α : Type} {f : State → α → State} (h : ∀ s a, (f s a).lines = s.lines) :
    ∀ (l : List α) (s : State), (l.foldl f s).lines = s.lines
  | [], _ => rfl
  | a :: l, s => (foldl_lines h l (f s a)).trans (h s a)

theorem clockSource_lines (src : ClockSource) (s : State) : (clockSource src s).lines = s.lines :=
  foldl_lines (fun s c => clockCounter_lines c s) _ s

theorem line_congr {s t : State} (h : t.lines = s.lines) (n : LineId) : t.line n = s.line n := by
  unfold State.line
  rw [h]

/-- An edge of a line reaches that line's debounced level, and no other line (R160). -/
theorem lineEdge_line (n m : LineId) (new : Level) (s : State) :
    (lineEdge n new s).line m = if m = n then { s.line n with debounced := new } else s.line m := by
  have e : (lineEdge n new s).lines = (s.modLine n (fun x => { x with debounced := new })).lines := by
    unfold lineEdge
    dsimp only
    split
    · exact clockSource_lines _ _
    · rfl
  rw [line_congr e]
  exact Tbl.get_put _ _ _ _

/-- A driven line stands at its level, sampled and debounced; the other lines stay (R160, R161). -/
theorem drive_line (n m : LineId) (new : Level) (s : State) :
    (drive n new s).line m = if m = n then { s.line n with sampled := new, debounced := new } else s.line m := by
  have driven : (s.modLine n (fun x => { x with sampled := new })).line m =
      if m = n then { s.line n with sampled := new } else s.line m := Tbl.get_put _ _ _ _
  unfold drive
  dsimp only
  split
  · next h =>
    rw [driven]
    split
    · rw [← h]
    · rfl
  · rw [lineEdge_line]
    split
    · rw [State.modLine_self]
    · next hm => rw [driven, if_neg hm]

theorem followTally_line_ne {n m : LineId} (h : m ≠ n) (s : State) : (followTally s n).line m = s.line m := by
  unfold followTally
  split
  · rw [drive_line, if_neg h]
  · rfl

/-- A line that has followed its tally is at its level (R161). -/
theorem followTally_follows (s : State) (n : LineId) : LineFollows (followTally s n) n := by
  intro output
  rw [(followTally_cueOnly s n).tallyLevel]
  unfold followTally at output ⊢
  split
  · rw [drive_line, if_pos rfl]
    exact ⟨rfl, rfl⟩
  · next input => exact absurd (by rwa [if_neg input] at output) input

theorem followTally_keeps {s : State} {n : LineId} (h : LineFollows s n) (m : LineId) :
    LineFollows (followTally s m) n := by
  by_cases e : n = m
  · subst e
    exact followTally_follows s n
  · unfold LineFollows
    rw [(followTally_cueOnly s m).tallyLevel, followTally_line_ne e]
    exact h

theorem foldl_follows {n : LineId} : ∀ (l : List LineId) (s : State), n ∈ l ∨ LineFollows s n →
    LineFollows (l.foldl followTally s) n
  | [], _, h => h.resolve_left List.not_mem_nil
  | m :: l, s, h => by
    refine foldl_follows l _ ?_
    rcases h with h | h
    · rcases List.mem_cons.1 h with rfl | h
      · exact .inr (followTally_follows s n)
      · exact .inl h
    · exact .inr (followTally_keeps h m)

/-- After the tallies every output line is at its level (R161). -/
theorem settleTallies_follows (s : State) : OutputLinesFollow (settleTallies s) :=
  fun n => foldl_follows _ s (.inl (List.mem_finRange n))

/-! ### What an operation leaves done -/

/-- From `s` to `t` what an event leaves done is not undone. -/
structure Settles (s t : State) : Prop where
  lines : OutputLinesFollow s → OutputLinesFollow t
  port : PortAsksWhenWanted s → PortAsksWhenWanted t

/-- What the tallies and the port's test read is as before. -/
structure Quiet (s t : State) : Prop where
  lines : t.lines = s.lines := by exact rfl
  services : ∀ v, (t.svc v).insertingTally = (s.svc v).insertingTally := by exact fun _ => rfl
  alerts : ∀ a, t.live a = s.live a := by exact fun _ => rfl
  slots : t.slots = s.slots := by exact rfl
  phase : t.port.phase = s.port.phase := by exact rfl
  resume : t.port.resume = s.port.resume := by exact rfl
  duty : t.port.duty = s.port.duty := by exact rfl
  dutyLimit : t.port.dutyLimit = s.port.dutyLimit := by exact rfl

section
variable {s t u : State}

theorem Settles.refl (s : State) : Settles s s := ⟨id, id⟩

theorem Settles.trans (h : Settles s t) (k : Settles t u) : Settles s u := ⟨k.lines ∘ h.lines, k.port ∘ h.port⟩

theorem Settles.foldl {α : Type} {f : State → α → State} (h : ∀ s a, Settles s (f s a)) :
    ∀ (l : List α) (s : State), Settles s (l.foldl f s)
  | [], s => Settles.refl s
  | a :: l, s => (h s a).trans (Settles.foldl h l (f s a))

theorem Quiet.lines_follow (h : Quiet s t) (hs : OutputLinesFollow s) : OutputLinesFollow t := by
  intro n
  rw [line_congr h.lines, tallyLevel_congr h.services h.alerts]
  exact hs n

theorem Quiet.settles (h : Quiet s t) : Settles s t where
  lines := h.lines_follow
  port := fun hs hi => by
    obtain ⟨hr, hw⟩ := hs (h.phase ▸ hi)
    refine ⟨h.resume.trans hr, fun hd k => ?_⟩
    rw [h.duty, h.dutyLimit] at hd
    have := hw hd k
    unfold State.slot at this ⊢
    rwa [h.slots]

theorem modSvc_quiet {v : SvcId} {f : Service → Service} (h : (f (s.svc v)).insertingTally = (s.svc v).insertingTally) :
    Quiet s (s.modSvc v f) where
  services := Tbl.rel_put (R := fun x y : Service => y.insertingTally = x.insertingTally) (fun _ => rfl) h

theorem modAlert_quiet {a : AlertId} {f : Alert → Alert} (h : (f (s.alert a)).state = (s.alert a).state) :
    Quiet s (s.modAlert a f) where
  alerts := fun i => by
    have := Tbl.rel_put (R := fun x y : Alert => y.state = x.state) (t := s.alerts) (i := a) (fun _ => rfl) h i
    unfold State.live State.alert
    exact congrArg (fun x => decide (x ≠ AlertState.idle)) this

theorem portTest_lines (h : OutputLinesFollow s) : OutputLinesFollow (portTest s) := by
  rcases portTest_cases s with ⟨e, -⟩ | ⟨e, -, -⟩
  · rw [e]; exact h
  · rw [e]; exact h

theorem finish_lines (s : State) : OutputLinesFollow (finish s) := portTest_lines (settleTallies_follows s)

/-- What follows an event leaves done what it should, whatever the event did (R110, R161). -/
theorem finish_settles (s t : State) : Settles s (finish t) := ⟨fun _ => finish_lines t, fun _ => portTest_asks _⟩

theorem finishFrom_settles (s t u : State) : Settles s (finishFrom t u) := finish_settles _ _

theorem event_settles (s t : State) (f : State → State) : Settles s (event f t) :=
  finishFrom_settles s t (oneEvent f t)

theorem portTest_settles (s : State) : Settles s (portTest s) := ⟨portTest_lines, fun _ => portTest_asks s⟩

theorem endTenure_lines (h : OutputLinesFollow s) : OutputLinesFollow (endTenure s) := by
  rcases endTenure_cases s with ⟨-, e⟩ | ⟨-, e⟩
  · rw [e]; exact h
  · rw [e]; exact portTest_lines h

theorem endTenure_asks (s : State) : PortAsksWhenWanted (endTenure s) := by
  rcases endTenure_cases s with ⟨-, e⟩ | ⟨-, e⟩
  · rw [e]; exact fun hi => nomatch hi
  · rw [e]; exact portTest_asks _

end

/-! ### The commands of the port and the timer -/

theorem endTenure_settles {s t : State} (h : OutputLinesFollow s → OutputLinesFollow t) : Settles s (endTenure t) :=
  ⟨fun hs => endTenure_lines (h hs), fun _ => endTenure_asks t⟩

theorem backOffStep_settles (s : State) : Settles s (backOffStep s) := by
  unfold backOffStep
  split
  · split
    · exact endTenure_settles id
    · split
      · exact endTenure_settles id
      · exact endTenure_settles id
  · exact Settles.refl s

theorem gapOver_settles (s : State) : Settles s (gapOver s) := ⟨fun h => portTest_lines h, fun _ => portTest_asks _⟩

theorem gapEndStep_settles (s : State) : Settles s (gapEndStep s) := by
  unfold gapEndStep
  split
  · exact gapOver_settles s
  · exact Settles.refl s

theorem storeClock_settles (s : State) : Settles s (storeClock s) := by
  unfold storeClock
  split
  · split
    · exact gapOver_settles s
    · exact Quiet.settles {}
  · exact Settles.refl s

theorem positionStep_settles (n : OutLaneId) (s : State) : Settles s (positionStep n s) := by
  rcases positionStep_cases n s with ⟨-, h⟩ | ⟨-, h⟩
  · rw [h]; exact finish_settles s _
  · rw [h]; exact Settles.refl s

theorem arrival_settles (lane : InLaneId) (bytes : List Byte) (s : State) : Settles s (arrival lane bytes s) := by
  unfold arrival
  dsimp only
  split
  · split
    · exact Quiet.settles {}
    · exact finishFrom_settles s _ _
  · exact Settles.refl s

theorem updateShed_settles (n : OutLaneId) (s : State) (v : SvcId) : Settles s (updateShed n s v) := by
  unfold updateShed
  dsimp only
  split
  · exact (modSvc_quiet rfl).settles
  · exact Settles.refl s

theorem beginWindow_settles (n : OutLaneId) (s : State) : Settles s (beginWindow n s) := by
  have updated : Settles s ((List.finRange 64).foldl (updateShed n) s) := Settles.foldl (updateShed_settles n) _ s
  unfold beginWindow
  generalize (List.finRange 64).foldl (updateShed n) s = t at updated ⊢
  exact updated.trans (Quiet.settles {})

theorem expiryStep_settles (c : CounterId) (s : State) : Settles s (expiryStep c s) :=
  event_settles s s (takeClock 16 c)

theorem pulseStep_settles (c : CounterId) (s : State) : Settles s (pulseStep c s) := by
  unfold pulseStep
  split
  · exact expiryStep_settles c s
  · exact Settles.refl s

theorem runDue_settles (d : Due) (s : State) : Settles s (runDue d s) := by
  cases d with
  | debounce n => exact finish_settles s _
  | laneLoss lane =>
    show Settles s (laneLossStep lane s)
    unfold laneLossStep
    split
    · exact event_settles s _ _
    · exact Settles.refl s
  | backstop v =>
    show Settles s (backstopCheck v s)
    unfold backstopCheck
    split
    · exact event_settles s _ _
    · exact Settles.refl s
  | hold v =>
    show Settles s (holdCheck v s)
    unfold holdCheck
    split
    · exact (modSvc_quiet rfl).settles
    · exact Settles.refl s
  | lease a =>
    show Settles s (leaseCheck a s)
    unfold leaseCheck
    split
    · exact finishFrom_settles s _ _
    · exact Settles.refl s
  | window n => exact beginWindow_settles n s
  | clock c => exact expiryStep_settles c s
  | pulse c => exact pulseStep_settles c s

theorem takeDue_settles (d : Due) (s : State) : Settles s (takeDue d s) := by
  rcases takeDue_cases d s with ⟨-, h⟩ | ⟨-, h⟩
  · rw [h]; exact (Quiet.settles {}).trans (runDue_settles d _)
  · rw [h]; exact Settles.refl s

theorem takeExpiry_settles (c : CounterId) (s : State) : Settles s (takeExpiry c s) := by
  unfold takeExpiry
  split
  · exact takeDue_settles _ s
  · exact takeDue_settles _ s

theorem takeFresh_settles : ∀ (n : Nat) (old : List Due) (s : State), Settles s (takeFresh n old s)
  | 0, _, s => Settles.refl s
  | n + 1, old, s => by
    unfold takeFresh
    split
    · exact Settles.refl s
    · exact (Settles.trans (Quiet.settles {}) (expiryStep_settles _ _)).trans (takeFresh_settles n _ _)

theorem settleFresh_settles (s t : State) : Settles t (settleFresh s t) := takeFresh_settles _ _ t

theorem settleDue_settles (s : State) : Settles s (settleDue s) :=
  Settles.trans (Quiet.settles {})
    (Settles.foldl (fun t d => (runDue_settles d t).trans (settleFresh_settles t _)) s.due { s with due := [] })

theorem settlePositions_settles (n : OutLaneId) : ∀ (k : Nat) (s : State), Settles s (settlePositions n k s)
  | 0, s => Settles.refl s
  | k + 1, s => by
    unfold settlePositions
    split
    · exact (positionStep_settles n s).trans (settlePositions_settles n k _)
    · exact Settles.refl s

theorem settleMs_settles (s : State) : Settles s (settleMs s) :=
  ((settleDue_settles s).trans (Settles.foldl (fun t n => settlePositions_settles n _ t) _ _)).trans
    (settleDue_settles _)

@[simp] theorem addDue_line (s : State) (d : Due) (n : LineId) : (s.addDue d).line n = s.line n := rfl

/-- The samples of a tick reach the input lines only (R159). -/
theorem sampleLine_line_of_output {pins : BitVec 8} {s : State} {m : LineId} (n : LineId)
    (h : ((sampleLine pins s n).line m).direction = .output) : (sampleLine pins s n).line m = s.line m := by
  by_cases e : m = n
  · subst e
    unfold sampleLine at h ⊢
    dsimp only at h ⊢
    split at h
    · next out => rw [if_pos out]
    · next input =>
      exfalso
      revert h
      split_ifs <;> simp [State.modLine_self, input]
  · unfold sampleLine
    dsimp only
    split_ifs <;> simp [State.modLine_ne _ _ e]

theorem sampleLine_lines {pins : BitVec 8} {s : State} (h : OutputLinesFollow s) (n : LineId) :
    OutputLinesFollow (sampleLine pins s n) := by
  intro m output
  have same := sampleLine_line_of_output n output
  rw [(sampleLine_cueOnly pins s n).tallyLevel, same]
  exact h m (same ▸ output)

theorem clockMs_lines (s : State) (c : CounterId) : (clockMs s c).lines = s.lines := by
  unfold clockMs
  split
  · rfl
  · exact clockCounter_lines c s

/-- A tick samples the input lines, clocks the counters and makes the port's test (R185). -/
theorem tickBody_lines {pins : BitVec 8} {s : State} (h : OutputLinesFollow s) :
    OutputLinesFollow (tickBody pins s) := by
  have sampled : OutputLinesFollow ((List.finRange 8).foldl (sampleLine pins) (s.modPort (fun p => { p with duty := 0 }))) := by
    have : ∀ (l : List LineId) (t : State), OutputLinesFollow t → OutputLinesFollow (l.foldl (sampleLine pins) t) := by
      intro l
      induction l with
      | nil => exact fun t ht => ht
      | cons n l ih => exact fun t ht => ih _ (sampleLine_lines ht n)
    exact this _ _ h
  unfold tickBody
  dsimp only
  generalize (List.finRange 8).foldl (sampleLine pins) (s.modPort (fun p => { p with duty := 0 })) = t at sampled ⊢
  have windowed : Quiet t (windowTick { t with due := t.due ++ dueAtTick t }) := by
    unfold windowTick
    split <;> exact {}
  generalize windowTick { t with due := t.due ++ dueAtTick t } = u at windowed ⊢
  refine portTest_lines fun n => ?_
  rw [(CueOnly.foldl clockMs_cueOnly _ u).tallyLevel, line_congr (foldl_lines clockMs_lines _ u)]
  exact windowed.lines_follow sampled n

theorem tick_settles (pins : BitVec 8) (s : State) : Settles s (tick pins s) where
  lines := fun h => by
    have settled := (settleMs_settles s).lines h
    unfold tick
    generalize settleMs s = t at settled ⊢
    exact tickBody_lines (Quiet.lines_follow (s := t) {} settled)
  port := fun _ => by
    unfold tick tickBody
    exact portTest_asks _

/-! ### The records -/

section
variable {s : State}

theorem checked_settles {checks : List (Bool × Code)} {t : State} (h : (∀ x ∈ checks, x.1 = false) → Settles s t) :
    Settles s (checked checks s t).1 := by
  rcases checked_cases checks s t with ⟨c, -, e⟩ | ⟨pass, e⟩
  · rw [e]; exact Settles.refl s
  · rw [e]; exact h pass

theorem atIndex_settles {n i : Nat} {f : Fin n → State × Code} (h : ∀ k, Settles s (f k).1) :
    Settles s (atIndex n i s f).1 := by
  unfold atIndex
  split
  · exact h _
  · exact Settles.refl s

theorem refuseIf_settles {bad : Bool} {c : Code} {r : Answered} (h : Settles s r.1) :
    Settles s (refuseIf bad c s r).1 := by
  cases bad
  · exact h
  · exact Settles.refl s

theorem entryAt_settles {n i : Nat} {f : Fin n → Answered} (h : ∀ k, Settles s (f k).1) :
    Settles s (entryAt n i s f).1 := by
  unfold entryAt
  split
  · exact h _
  · exact Settles.refl s

theorem answered_settles {t : State} {r : Result} (h : Settles s t) : Settles s ((t, r) : Answered).1 := h

theorem record_settles {r : Answered} (h : Settles s r.1) : Settles s (record r) := h.trans (Quiet.settles {})

theorem storeRoute_quiet (r : RouteId) (x : Route) (s : State) : Quiet s (storeRoute r x s) := by
  unfold storeRoute
  dsimp only
  split <;> exact {}

theorem writeRouteActive_settles (cls : Fin 4) (i : Nat) (w : RouteImg) (s : State) :
    Settles s (writeRouteActive cls i w s).1 :=
  atIndex_settles fun r => checked_settles fun _ => (storeRoute_quiet r _ s).settles

theorem writeRouteFree_settles (cls : Fin 4) (i guard : Nat) (s : State) :
    Settles s (writeRouteFree cls i guard s).1 :=
  atIndex_settles fun r => checked_settles fun _ => Quiet.settles (t := freeRoute r _ s) {}

theorem writeRoute_settles (cls : Fin 4) (i : Nat) (w : Nat × RouteImg) (s : State) :
    Settles s (writeRoute cls i w s).1 := by
  unfold writeRoute
  split
  · exact writeRouteFree_settles cls i _ s
  · exact writeRouteActive_settles cls i _ s
  · exact atIndex_settles fun r => checked_settles fun _ => Settles.refl s

theorem moveService_settles (v : SvcId) (network : Bool) (s : State) : Settles s (moveService v network s) := by
  unfold moveService
  split
  · next h => exact (modSvc_quiet (by simp [Service.insertingTally, Service.enable, h])).settles
  · next h =>
    refine Settles.trans (t := s.leaveWait (.loss v)) (Quiet.settles {}) (modSvc_quiet ?_).settles
    have network : ((s.leaveWait (.loss v)).svc v).state = .network := h
    simp [Service.insertingTally, Service.disable, network]
  · exact Settles.refl s

theorem writeService_settles (cls : Fin 4) (i state : Nat) (w : ServiceImg) (s : State) :
    Settles s (writeService cls i state w s).1 :=
  atIndex_settles fun v => checked_settles fun _ =>
    (modSvc_quiet (s := s) (v := v) (f := fun x => { x with cfg := configOfImg w cls }) rfl).settles.trans
      (moveService_settles v _ _)

theorem storeEvent_quiet (e : EventId) (x : Event) (s : State) : Quiet s (storeEvent e x s) := by
  unfold storeEvent
  dsimp only
  split <;> exact {}

theorem writeEvent_settles (cls : Fin 4) (i : Nat) (w : EventImg) (s : State) :
    Settles s (writeEvent cls i w s).1 :=
  atIndex_settles fun e => checked_settles fun _ => (storeEvent_quiet e _ s).settles

theorem writeClip_settles (cls : Fin 4) (i : Nat) (w : ClipImg) (s : State) : Settles s (writeClip cls i w s).1 :=
  atIndex_settles fun c => checked_settles fun _ => Quiet.settles (t := s.setClip c _) {}

theorem writeWindow_settles (cls : Fin 4) (i : Nat) (w : WindowImg) (s : State) :
    Settles s (writeWindow cls i w s).1 :=
  atIndex_settles fun k => checked_settles fun _ => Quiet.settles (t := s.setWindow k _) {}

theorem writeAlert_settles (cls : Fin 4) (i : Nat) (w : AlertImg) (s : State) : Settles s (writeAlert cls i w s).1 :=
  atIndex_settles fun _ => checked_settles fun _ => (modAlert_quiet rfl).settles

theorem writeCounter_settles (cls : Fin 4) (i : Nat) (w : CounterImg) (s : State) :
    Settles s (writeCounter cls i w s).1 :=
  atIndex_settles fun c => checked_settles fun _ => Quiet.settles (t := s.modCounter c _) {}

/-- A line other than the one written is where it was; the one written is at its level if it is OUT (R158, R161). -/
theorem turnLine_lines {n : LineId} {old new : Direction} {s : State} (dir : (s.line n).direction = new)
    (others : ∀ m, m ≠ n → LineFollows s m) : OutputLinesFollow (turnLine n old new s) := by
  have input (t : State) (h : (t.line n).direction = .input) (same : ∀ x, tallyLevel t x = tallyLevel s x)
      (kept : ∀ m, m ≠ n → t.line m = s.line m) : OutputLinesFollow t := by
    intro m output
    by_cases e : m = n
    · subst e
      exact nomatch h.symm.trans output
    · have := others m e
      unfold LineFollows at this
      rw [same, kept m e]
      exact this (kept m e ▸ output)
  unfold turnLine
  split
  · exact input s dir (fun _ => rfl) (fun _ _ => rfl)
  · exact input _ (by rw [State.modLine_self]; exact dir) (modLine_cueOnly _ _ _).tallyLevel
      (fun m e => State.modLine_ne s _ e)
  · intro m output
    rw [((modLine_cueOnly n _ s).trans (drive_cueOnly n _ _)).tallyLevel, drive_line] at *
    split at output
    · next e =>
      rw [if_pos e, State.modLine_self]
      exact ⟨rfl, rfl⟩
    · next e =>
      rw [if_neg e, State.modLine_ne s _ e] at *
      exact others m e output

theorem turnLine_settles_port (n : LineId) (old new : Direction) (h : PortAsksWhenWanted s) :
    PortAsksWhenWanted (turnLine n old new s) := by
  have cue : CueOnly s (turnLine n old new s) := by
    unfold turnLine
    split
    · exact CueOnly.refl s
    · exact modLine_cueOnly n _ s
    · exact (modLine_cueOnly n _ s).trans (drive_cueOnly n _ _)
  obtain ⟨l, c, d, e⟩ := cue
  rw [e]
  exact h

theorem writeCueline_settles (cls : Fin 4) (i : Nat) (w : CueLineImg) (s : State) :
    Settles s (writeCueline cls i w s).1 := by
  refine atIndex_settles fun n => ?_
  split
  · exact Settles.refl s
  · refine ⟨fun h => turnLine_lines ?_ fun m e => ?_, fun h => turnLine_settles_port n _ _ h⟩
    · rw [State.modLine_self]
    · unfold LineFollows
      rw [State.modLine_ne s _ e, (modLine_cueOnly n _ s).tallyLevel]
      exact h m
  · exact Settles.refl s

theorem writeChannel_settles (cls : Fin 4) (i : Nat) (w : ChannelImg) (s : State) :
    Settles s (writeChannel cls i w s).1 :=
  atIndex_settles fun h => checked_settles fun _ => Quiet.settles (t := s.modChannel h _) {}

theorem writeInlane_settles (cls : Fin 4) (i timeout : Nat) (s : State) : Settles s (writeInlane cls i timeout s).1 :=
  atIndex_settles fun n => checked_settles fun _ => Quiet.settles (t := s.modInLane n _) {}

theorem writeOutlane_settles (cls : Fin 4) (i capacity : Nat) (s : State) :
    Settles s (writeOutlane cls i capacity s).1 :=
  atIndex_settles fun n => checked_settles fun _ => Quiet.settles (t := s.modOutLane n _) {}

theorem writeStore_settles (cls : Fin 4) (i : Nat) (w : StoreImg) (s : State) : Settles s (writeStore cls i w s).1 :=
  atIndex_settles fun _ => checked_settles fun _ => ⟨fun h => portTest_lines h, fun _ => portTest_asks _⟩

theorem writeImage_settles (cls : Fin 4) (t : Table) (i : Nat) (bs : List Byte) (s : State) :
    Settles s (writeImage cls t i bs s).1 := by
  cases t with
  | route => exact writeRoute_settles cls i _ s
  | service => exact writeService_settles cls i _ _ s
  | event => exact writeEvent_settles cls i _ s
  | clip => exact writeClip_settles cls i _ s
  | window => exact writeWindow_settles cls i _ s
  | slot => exact Settles.refl s
  | alert => exact writeAlert_settles cls i _ s
  | counter => exact writeCounter_settles cls i _ s
  | cueline => exact writeCueline_settles cls i _ s
  | channel => exact writeChannel_settles cls i _ s
  | inlane => exact writeInlane_settles cls i _ s
  | outlane => exact writeOutlane_settles cls i _ s
  | store => exact writeStore_settles cls i _ s
  | log => exact Settles.refl s
  | part => exact Settles.refl s

theorem doRead_settles (x : Ctx) (table i : Nat) (fields : List Byte) (s : State) :
    Settles s (doRead x table i fields s).1 := by
  unfold doRead
  split
  · exact Settles.refl s
  · exact refuseIf_settles (refuseIf_settles (refuseIf_settles (Settles.refl s)))

theorem advanceCursorOf_settles (h : ChannelId) (t : Table) (i : Nat) (s : State) :
    Settles s (advanceCursorOf h t i s) := Quiet.settles {}

theorem doPoint_settles (x : Ctx) (table i : Nat) (s : State) : Settles s (doPoint x table i s).1 := by
  unfold doPoint
  split
  · exact Settles.refl s
  · exact refuseIf_settles (Quiet.settles {})

theorem doWrite_settles (x : Ctx) (table i : Nat) (fields : List Byte) (s : State) :
    Settles s (doWrite x table i fields s).1 := by
  unfold doWrite
  split
  · exact Settles.refl s
  · exact refuseIf_settles (refuseIf_settles (refuseIf_settles (writeImage_settles _ _ _ _ s)))

theorem doPut_settles (x : Ctx) (fields : List Byte) (s : State) : Settles s (doPut x fields s).1 := by
  unfold doPut
  split
  · exact Settles.refl s
  · refine refuseIf_settles (refuseIf_settles ?_)
    split
    · exact advanceCursorOf_settles _ _ _ s
    · exact (writeImage_settles _ _ _ _ s).trans (advanceCursorOf_settles _ _ _ _)

theorem doGet_settles (x : Ctx) (fields : List Byte) (s : State) : Settles s (doGet x fields s).1 := by
  unfold doGet
  split
  · exact Settles.refl s
  · refine refuseIf_settles (refuseIf_settles ?_)
    split
    · exact Settles.refl s
    · exact advanceCursorOf_settles _ _ _ s

theorem renewLease_settles (a : AlertId) (s : State) : Settles s (renewLease a s) := (modAlert_quiet rfl).settles

theorem doAlertOn_settles (x : Ctx) (i : Nat) (s : State) : Settles s (doAlertOn x i s).1 := by
  refine entryAt_settles fun a => refuseIf_settles ?_
  split
  · exact renewLease_settles a s
  · exact refuseIf_settles (refuseIf_settles (answered_settles (finishFrom_settles s _ _)))

theorem doTakeLog_settles (x : Ctx) (s : State) : Settles s (doTakeLog x s).1 := by
  unfold doTakeLog
  split
  · exact Settles.refl s
  · exact refuseIf_settles (refuseIf_settles (answered_settles (Quiet.settles {})))

theorem modAt_settles {n i : Nat} {f : Fin n → State} (h : ∀ k, Settles s (f k)) : Settles s (modAt n i s f) := by
  unfold modAt
  split
  · exact h _
  · exact Settles.refl s

theorem clearItems_settles (t : Table) (i mask : Nat) (s : State) : Settles s (clearItems t i mask s) := by
  unfold clearItems
  split
  · exact modAt_settles fun k => Quiet.settles {}
  · exact modAt_settles fun k => (modSvc_quiet rfl).settles
  · exact modAt_settles fun k => (modAlert_quiet rfl).settles
  · exact modAt_settles fun k => Quiet.settles {}
  · exact modAt_settles fun k => Quiet.settles {}
  · exact modAt_settles fun k => Quiet.settles {}
  · exact Quiet.settles {}
  · exact Settles.refl s

theorem doClear_settles (x : Ctx) (table i : Nat) (fields : List Byte) (s : State) :
    Settles s (doClear x table i fields s).1 := by
  unfold doClear
  split
  · exact Settles.refl s
  · exact refuseIf_settles (refuseIf_settles (refuseIf_settles (refuseIf_settles (clearItems_settles _ _ _ s))))

/-- A port that RESTART leaves has no fetch to resume (R122). -/
theorem restartStorePort_resume (s : State) : (restartStorePort s).port.resume = false := by
  rcases restartStorePort_cases s with ⟨-, h⟩ | ⟨-, -, -, h | h⟩
  · rw [h]; rfl
  · rw [h]; rfl
  · rw [h]
    generalize hu : ({ s.modPort Port.dropped with draws := s.draws + 1 } : State) = u
    have resume : u.port.resume = false := by rw [← hu]; rfl
    show (endTenure u).port.resume = false
    rcases endTenure_cases u with ⟨-, e⟩ | ⟨-, e⟩
    · rw [e]; exact resume
    · rw [e, gapOver]
      rcases portTest_cases ((u.modPort (fun p => { p with phase := .releasing, gapCount := p.gap })).modPort
        (fun p => { p with phase := .idle, gapCount := 0 })) with ⟨e, -⟩ | ⟨e, -, -⟩
      · rw [e]; exact resume
      · rw [e]; exact resume

theorem restartStorePort_slots (s : State) : (restartStorePort s).slots = s.slots := by
  rcases restartStorePort_cases s with ⟨-, h⟩ | ⟨-, -, -, h | h⟩ <;> rw [h] <;> rfl

/-- RESTART settles the port on a part whose slots are all FREE (R107, R122). -/
theorem restartBlocks_eq (s : State) :
    ∃ u : State, u.slots = Vector.replicate 16 Slot.reset ∧ restartBlocks s = restartStorePort u := by
  unfold restartBlocks
  generalize (List.finRange 64).foldl restartService s = t
  exact ⟨_, rfl, rfl⟩

/-- After RESTART no slot wants a cell, and the output lines are at their levels (R107, R122, R161). -/
theorem restartPart_settles (s : State) : Settles s (restartPart s) where
  lines := fun _ => settleTallies_follows _
  port := fun _ => by
    unfold restartPart
    generalize oneEvent (fun s => (List.finRange 256).foldl restartEvent s) s = t
    obtain ⟨l, c, d, e⟩ := settleTallies_cueOnly (restartBlocks t)
    rw [e]
    obtain ⟨u, free, eu⟩ := restartBlocks_eq t
    rw [eu]
    intro _
    refine ⟨restartStorePort_resume u, fun _ k => ?_⟩
    show Slot.wants ((restartStorePort u).slots.get k) = false
    rw [restartStorePort_slots, free, Tbl.get_replicate]
    rfl

theorem actionRecord_settles {want : Table} {r : RawRecord} {act : Answered} (h : Settles s act.1) :
    Settles s (actionRecord want r s act).1 := by
  unfold actionRecord
  split
  · exact Settles.refl s
  · exact refuseIf_settles (refuseIf_settles (refuseIf_settles h))

end

theorem doSpliceNow_settles (x : Ctx) (i : Nat) (s : State) : Settles s (doSpliceNow x i s).1 :=
  entryAt_settles fun _ => refuseIf_settles (refuseIf_settles (answered_settles (finish_settles s _)))

theorem doCancel_settles (x : Ctx) (i : Nat) (s : State) : Settles s (doCancel x i s).1 :=
  entryAt_settles fun _ => refuseIf_settles (refuseIf_settles (answered_settles (event_settles s s _)))

theorem doAlertRenew_settles (x : Ctx) (i : Nat) (s : State) : Settles s (doAlertRenew x i s).1 :=
  entryAt_settles fun a => refuseIf_settles (refuseIf_settles (answered_settles (renewLease_settles a s)))

theorem doAlertOff_settles (x : Ctx) (i : Nat) (s : State) : Settles s (doAlertOff x i s).1 :=
  entryAt_settles fun _ => refuseIf_settles (refuseIf_settles (answered_settles (finishFrom_settles s _ _)))

theorem doCounterStart_settles (x : Ctx) (i : Nat) (s : State) : Settles s (doCounterStart x i s).1 :=
  entryAt_settles fun c => refuseIf_settles (answered_settles (Quiet.settles (t := s.modCounter c _) {}))

theorem doCounterStop_settles (x : Ctx) (i : Nat) (s : State) : Settles s (doCounterStop x i s).1 :=
  entryAt_settles fun c => refuseIf_settles (answered_settles (Quiet.settles (t := stopCounter c s) {}))

theorem doRestart_settles (x : Ctx) (i : Nat) (s : State) : Settles s (doRestart x i s).1 :=
  entryAt_settles fun _ => refuseIf_settles (answered_settles (restartPart_settles s))

theorem pointRecord_settles (x : Ctx) (r : RawRecord) (s : State) : Settles s (pointRecord x r s).1 := by
  unfold pointRecord
  split
  · exact Settles.refl s
  · exact refuseIf_settles (refuseIf_settles (doPoint_settles x _ _ s))

theorem runRecord_settles (x : Ctx) (r : RawRecord) (s : State) : Settles s (runRecord x r s).1 := by
  unfold runRecord
  split
  · exact doRead_settles x _ _ _ s
  · exact doWrite_settles x _ _ _ s
  · exact pointRecord_settles x r s
  · exact doPut_settles x _ s
  · exact doGet_settles x _ s
  · exact actionRecord_settles (doSpliceNow_settles x _ s)
  · exact actionRecord_settles (doCancel_settles x _ s)
  · exact actionRecord_settles (doAlertOn_settles x _ s)
  · exact actionRecord_settles (doAlertRenew_settles x _ s)
  · exact actionRecord_settles (doAlertOff_settles x _ s)
  · exact actionRecord_settles (doCounterStart_settles x _ s)
  · exact actionRecord_settles (doCounterStop_settles x _ s)
  · exact actionRecord_settles (doTakeLog_settles x s)
  · exact doClear_settles x _ _ _ s
  · exact actionRecord_settles (doRestart_settles x _ s)
  · exact Settles.refl s

theorem runRecords_settles (ch : ChannelId) (cls : Fin 4) :
    ∀ (room : Nat) (l : List RawRecord) (s : State), Settles s (runRecords ch cls room l s).1
  | _, [], s => Settles.refl s
  | room, r :: l, s =>
    ((record_settles (runRecord_settles ⟨ch, cls, room⟩ r s)).trans (settleFresh_settles s _)).trans
      (runRecords_settles ch cls _ l _)

theorem respond_settles (h : ChannelId) (seq : Nat) (cls : Fin 4) (results : List Result) (s : State) :
    Settles s (respond h seq cls results s) := Quiet.settles {}

theorem executeCell_settles (s : State) : Settles s (executeCell s) := by
  unfold executeCell
  split
  · exact Settles.refl s
  · next i rest _ =>
    have taken : Settles s { s with intake := rest } := Quiet.settles {}
    dsimp only
    split
    · exact taken.trans (respond_settles _ _ _ _ _)
    · exact taken.trans ((runRecords_settles _ _ _ _ _).trans (respond_settles _ _ _ _ _))

/-! ### Reset and every command -/

theorem powerOn_settled (lane : InLaneId) (off : Fin 8) : Settled (State.powerOn lane off) :=
  ⟨fun n h => by rw [powerOn_line] at h; exact (nomatch h),
    fun _ => ⟨rfl, fun _ k => by rw [powerOn_slot]; rfl⟩⟩

theorem exec_settles (i : Instr) (s : State) : ∃ t, exec i s = .next t ∧ Settles s t := by
  cases i with
  | powerOnReset lane off =>
    exact ⟨_, rfl, fun _ => (powerOn_settled lane off).1, fun _ => (powerOn_settled lane off).2⟩
  | stationTick pins => exact ⟨_, rfl, tick_settles pins s⟩
  | debounceEdge n => exact ⟨_, rfl, takeDue_settles _ s⟩
  | cellArrival lane bytes => exact ⟨_, rfl, arrival_settles lane bytes s⟩
  | laneLoss lane => exact ⟨_, rfl, takeDue_settles _ s⟩
  | backstop v => exact ⟨_, rfl, takeDue_settles _ s⟩
  | clockModelHold v => exact ⟨_, rfl, takeDue_settles _ s⟩
  | windowStart lane => exact ⟨_, rfl, takeDue_settles _ s⟩
  | outputPosition lane => exact ⟨_, rfl, positionStep_settles lane s⟩
  | leaseLapse a => exact ⟨_, rfl, takeDue_settles _ s⟩
  | counterExpiry c => exact ⟨_, rfl, takeExpiry_settles c s⟩
  | busGrant busy => exact ⟨_, rfl, finish_settles s _⟩
  | burstAnswer ack error inhibit data => exact ⟨_, rfl, finish_settles s _⟩
  | backOff => exact ⟨_, rfl, backOffStep_settles s⟩
  | gapEnd => exact ⟨_, rfl, gapEndStep_settles s⟩
  | controlCellExecute => exact ⟨_, rfl, executeCell_settles s⟩
  | read x table index fields => exact ⟨_, rfl, record_settles (doRead_settles x table index fields s)⟩
  | point x table index => exact ⟨_, rfl, record_settles (doPoint_settles x table index s)⟩
  | put x fields => exact ⟨_, rfl, record_settles (doPut_settles x fields s)⟩
  | get x fields => exact ⟨_, rfl, record_settles (doGet_settles x fields s)⟩
  | write x table index fields => exact ⟨_, rfl, record_settles (doWrite_settles x table index fields s)⟩
  | routeWriteActive x index img => exact ⟨_, rfl, record_settles (writeRouteActive_settles x.cls index img s)⟩
  | routeWriteFree x index guard => exact ⟨_, rfl, record_settles (writeRouteFree_settles x.cls index guard s)⟩
  | serviceWrite x index state img => exact ⟨_, rfl, record_settles (writeService_settles x.cls index state img s)⟩
  | serviceEnable x index img => exact ⟨_, rfl, record_settles (writeService_settles x.cls index _ img s)⟩
  | serviceDisable x index img => exact ⟨_, rfl, record_settles (writeService_settles x.cls index _ img s)⟩
  | eventWrite x index img => exact ⟨_, rfl, record_settles (writeEvent_settles x.cls index img s)⟩
  | clipWrite x index img => exact ⟨_, rfl, record_settles (writeClip_settles x.cls index img s)⟩
  | windowWrite x index img => exact ⟨_, rfl, record_settles (writeWindow_settles x.cls index img s)⟩
  | alertWrite x index img => exact ⟨_, rfl, record_settles (writeAlert_settles x.cls index img s)⟩
  | counterWrite x index img => exact ⟨_, rfl, record_settles (writeCounter_settles x.cls index img s)⟩
  | cuelineWrite x index img => exact ⟨_, rfl, record_settles (writeCueline_settles x.cls index img s)⟩
  | channelWrite x index img => exact ⟨_, rfl, record_settles (writeChannel_settles x.cls index img s)⟩
  | inlaneWrite x index timeout => exact ⟨_, rfl, record_settles (writeInlane_settles x.cls index timeout s)⟩
  | outlaneWrite x index capacity => exact ⟨_, rfl, record_settles (writeOutlane_settles x.cls index capacity s)⟩
  | storeWrite x index img => exact ⟨_, rfl, record_settles (writeStore_settles x.cls index img s)⟩
  | spliceNow x index => exact ⟨_, rfl, record_settles (doSpliceNow_settles x index s)⟩
  | cancel x index => exact ⟨_, rfl, record_settles (doCancel_settles x index s)⟩
  | alertOn x index => exact ⟨_, rfl, record_settles (doAlertOn_settles x index s)⟩
  | alertRenew x index => exact ⟨_, rfl, record_settles (doAlertRenew_settles x index s)⟩
  | alertOff x index => exact ⟨_, rfl, record_settles (doAlertOff_settles x index s)⟩
  | counterStart x index => exact ⟨_, rfl, record_settles (doCounterStart_settles x index s)⟩
  | counterStop x index => exact ⟨_, rfl, record_settles (doCounterStop_settles x index s)⟩
  | takeLog x index => exact ⟨_, rfl, record_settles (doTakeLog_settles x s)⟩
  | clear x table index fields => exact ⟨_, rfl, record_settles (doClear_settles x table index fields s)⟩
  | restart x index => exact ⟨_, rfl, record_settles (doRestart_settles x index s)⟩

theorem step_settles {s t : State} (h : step s = .next t) : Settles s t := by
  unfold step at h
  split at h
  · cases h
    exact storeClock_settles s
  · next c rest _ =>
    obtain ⟨u, e, settles⟩ := exec_settles c { s with pending := rest }
    cases e.symm.trans h
    exact Settles.trans (t := { s with pending := rest }) (Quiet.settles {}) settles

/-- Settles O9: a command that touches services, channels, lines or slots ends with the tallies or the port's test, and
the others leave what those read. -/
theorem talliesAndPortStaySettled : Obligations.TalliesAndPortStaySettled :=
  ⟨fun _ _ hs h => (step_settles h).lines hs, fun _ _ hs h => (step_settles h).port hs⟩

/-- Settles O4: each law holds of the reset values, whatever lane and tag are strapped. -/
theorem lawsHoldAtReset : Obligations.LawsHoldAtReset := by
  intro lane off
  have lawful := powerOn_lawful lane off (State.powerOn lane off)
  refine ⟨⟨powerOn_streams lane off, fun n => ?_, fun n => ?_, fun k => ?_, fun h => ?_⟩, fun c => ?_,
    powerOn_settings lane off, fun v => ?_, powerOn_counts lane off, fun a => ?_, powerOn_settled lane off⟩
  · simp [powerOn_allotted, OutLane.reset]
  · simp [OutLane.reset]
  · simp [Slot.reset]
  · simp [powerOn_queue, reserved]
  · simp [Counter.reset]
  · simp [Service.reset]
  · simp [Alert.reset]

end Sys2Proof.Machine
end

section
/-!
PROOFS. Two updates of one entry are one update, and an update that gives the entry back is none.
-/
namespace Sys2Proof.Machine
set_option Elab.async false

theorem modInLane_modInLane (s : State) (i : InLaneId) (f g : InLane → InLane) :
    (s.modInLane i f).modInLane i g = s.modInLane i (fun x => g (f x)) := by
  simp [State.modInLane, State.inLane]

theorem modRoute_modRoute (s : State) (i : RouteId) (f g : Route → Route) :
    (s.modRoute i f).modRoute i g = s.modRoute i (fun x => g (f x)) := by
  simp [State.modRoute, State.route]

theorem modSvc_modSvc (s : State) (i : SvcId) (f g : Service → Service) :
    (s.modSvc i f).modSvc i g = s.modSvc i (fun x => g (f x)) := by
  simp [State.modSvc, State.svc]

theorem modEvent_modEvent (s : State) (i : EventId) (f g : Event → Event) :
    (s.modEvent i f).modEvent i g = s.modEvent i (fun x => g (f x)) := by
  simp [State.modEvent, State.event]

theorem modOutLane_modOutLane (s : State) (i : OutLaneId) (f g : OutLane → OutLane) :
    (s.modOutLane i f).modOutLane i g = s.modOutLane i (fun x => g (f x)) := by
  simp [State.modOutLane, State.outLane]

theorem modLine_modLine (s : State) (i : LineId) (f g : CueLine → CueLine) :
    (s.modLine i f).modLine i g = s.modLine i (fun x => g (f x)) := by
  simp [State.modLine, State.line]

theorem modCounter_modCounter (s : State) (i : CounterId) (f g : Counter → Counter) :
    (s.modCounter i f).modCounter i g = s.modCounter i (fun x => g (f x)) := by
  simp [State.modCounter, State.counter]

theorem modChannel_modChannel (s : State) (i : ChannelId) (f g : Channel → Channel) :
    (s.modChannel i f).modChannel i g = s.modChannel i (fun x => g (f x)) := by
  simp [State.modChannel, State.channel]

theorem modInLane_eq_self {s : State} {i : InLaneId} {f : InLane → InLane} (h : f (s.inLane i) = s.inLane i) : s.modInLane i f = s := by
  rw [State.modInLane, h, State.inLane, Tbl.put_get]

theorem modRoute_eq_self {s : State} {i : RouteId} {f : Route → Route} (h : f (s.route i) = s.route i) : s.modRoute i f = s := by
  rw [State.modRoute, h, State.route, Tbl.put_get]

theorem modSvc_eq_self {s : State} {i : SvcId} {f : Service → Service} (h : f (s.svc i) = s.svc i) : s.modSvc i f = s := by
  rw [State.modSvc, h, State.svc, Tbl.put_get]

theorem modEvent_eq_self {s : State} {i : EventId} {f : Event → Event} (h : f (s.event i) = s.event i) : s.modEvent i f = s := by
  rw [State.modEvent, h, State.event, Tbl.put_get]

theorem modOutLane_eq_self {s : State} {i : OutLaneId} {f : OutLane → OutLane} (h : f (s.outLane i) = s.outLane i) : s.modOutLane i f = s := by
  rw [State.modOutLane, h, State.outLane, Tbl.put_get]

theorem modLine_eq_self {s : State} {i : LineId} {f : CueLine → CueLine} (h : f (s.line i) = s.line i) : s.modLine i f = s := by
  rw [State.modLine, h, State.line, Tbl.put_get]

theorem modCounter_eq_self {s : State} {i : CounterId} {f : Counter → Counter} (h : f (s.counter i) = s.counter i) : s.modCounter i f = s := by
  rw [State.modCounter, h, State.counter, Tbl.put_get]

theorem modChannel_eq_self {s : State} {i : ChannelId} {f : Channel → Channel} (h : f (s.channel i) = s.channel i) : s.modChannel i f = s := by
  rw [State.modChannel, h, State.channel, Tbl.put_get]

theorem modSlot_eq_self {s : State} {i : SlotId} {f : Slot → Slot} (h : f (s.slot i) = s.slot i) : s.modSlot i f = s := by
  rw [State.modSlot, h, State.slot, Tbl.put_get]

theorem modAlert_eq_self {s : State} {i : AlertId} {f : Alert → Alert} (h : f (s.alert i) = s.alert i) : s.modAlert i f = s := by
  rw [State.modAlert, h, State.alert, Tbl.put_get]

end Sys2Proof.Machine
end

section
/-!
PROOFS. The header of a cell (R1, section 10.7): what the bytes of a field spell, which 256 bytes are a cell, and that
the bytes of a cell are judged to be it.
-/
namespace Sys2Proof.Machine
set_option Elab.async false

/-! ### Fields of bytes -/

@[simp] theorem beBytes_length (w n : Nat) : (beBytes w n).length = w := by
  induction w with
  | zero => rfl
  | succ w ih => simp [beBytes, ih]

theorem beNat_append (a b : List Byte) : beNat (a ++ b) = beNat a * 256 ^ b.length + beNat b := by
  have shift : ∀ (b : List Byte) (n : Nat),
      b.foldl (fun a b => a * 256 + b.toNat) n = n * 256 ^ b.length + b.foldl (fun a b => a * 256 + b.toNat) 0 := by
    intro b
    induction b with
    | nil => simp
    | cons x b ih =>
      intro n
      rw [List.foldl_cons, List.foldl_cons, ih, ih (0 * 256 + x.toNat), List.length_cons]
      ring
  unfold beNat
  rw [List.foldl_append, shift]

/-- The bytes of a number spell it, modulo what fits (section 10.7). -/
theorem beNat_beBytes (w n : Nat) : beNat (beBytes w n) = n % 256 ^ w := by
  induction w with
  | zero => simp [beBytes, beNat, Nat.mod_one]
  | succ w ih =>
    have digit : beNat [BitVec.ofNat 8 (n / 256 ^ w)] = n / 256 ^ w % 256 := by simp [beNat]
    rw [beBytes, ← List.singleton_append, beNat_append, digit, ih, beBytes_length, Nat.pow_succ, Nat.mod_mul]
    ring

theorem beNat_beBytes_of_lt {w n : Nat} (h : n < 256 ^ w) : beNat (beBytes w n) = n := by
  rw [beNat_beBytes, Nat.mod_eq_of_lt h]

/-- A field at the front. -/
theorem field_append_front {a b : List Byte} {w : Nat} (h : a.length = w) : field (a ++ b) 0 w = beNat a := by
  rw [field, List.drop_zero, List.take_left' h]

/-- A field behind the front. -/
theorem field_append_behind {a : List Byte} {at_ : Nat} (b : List Byte) (w : Nat) (h : a.length ≤ at_) :
    field (a ++ b) at_ w = field b (at_ - a.length) w := by
  rw [field, field, List.drop_append, List.drop_eq_nil_of_le h, List.nil_append]

theorem drop_eq_getD_cons {bs : List Byte} {i : Nat} (h : i < bs.length) :
    bs.drop i = bs.getD i 0 :: bs.drop (i + 1) := by
  rw [List.drop_eq_getElem_cons h, List.getD_eq_getElem _ _ h]

theorem field_one {bs : List Byte} {i : Nat} (h : i < bs.length) : field bs i 1 = (bs.getD i 0).toNat := by
  rw [field, drop_eq_getD_cons h]
  simp [beNat]

theorem field_two {bs : List Byte} {i : Nat} (h : i + 1 < bs.length) :
    field bs i 2 = (bs.getD i 0).toNat * 256 + (bs.getD (i + 1) 0).toNat := by
  rw [field, drop_eq_getD_cons (Nat.lt_of_succ_lt h), drop_eq_getD_cons h]
  simp [beNat]

/-! ### The judgement of 256 bytes -/

theorem kindOf_eq_none {n : Nat} : kindOf n = none ↔ 3 < n := by
  rcases n with _ | _ | _ | _ | n <;> simp [kindOf]

theorem kindOf_eq_filler {n : Nat} : kindOf n = some .filler ↔ n = 1 := by
  rcases n with _ | _ | _ | _ | n <;> simp [kindOf]

/-- Bytes are no cell by their kind, by their length, or by a tag that does not go with the kind (R1). -/
theorem judge_eq_none {bs : List Byte} :
    judge bs = none ↔ kindOf (field bs 2 1 / 32) = none ∨
      240 < field bs 14 1 ∨
      ¬(kindOf (field bs 2 1 / 32) = some .filler ↔ (BitVec.ofNat 12 (field bs 0 2 / 16)).toNat = 4095) := by
  unfold judge
  cases hk : kindOf (field bs 2 1 / 32) with
  | none => simp
  | some k =>
    dsimp only
    rw [ite_eq_right_iff]
    simp only [reduceCtorEq, imp_false, not_and_or, false_or, Option.some.injEq, Config.payloadBytes, Nat.not_le]

/-- Settles O11: the three fields stand where the statement reads them, and the judgement is by their values. -/
theorem headersAreJudged : Obligations.HeadersAreJudged := by
  intro bs size kind length tag
  have b0 := (bs.getD 0 0).isLt
  have b1 := (bs.getD 1 0).isLt
  have hk : field bs 2 1 / 32 = kind := by rw [field_one (by omega)]
  have hl : field bs 14 1 = length := field_one (by omega)
  have ht : (BitVec.ofNat 12 (field bs 0 2 / 16)).toNat = tag := by
    rw [field_two (by omega), BitVec.toNat_ofNat]
    show ((bs.getD 0 0).toNat * 256 + (bs.getD 1 0).toNat) / 16 % 2 ^ 12 =
      (bs.getD 0 0).toNat * 16 + (bs.getD 1 0).toNat / 16
    omega
  rw [judge_eq_none, hk, hl, ht, kindOf_eq_none, kindOf_eq_filler]
  generalize kind = k, tag = t, length = l
  constructor
  · rintro (h | h | h)
    · exact .inl h
    · exact .inr (.inl h)
    · by_cases k1 : k = 1
      · exact .inr (.inr (.inl ⟨k1, fun e => h ⟨fun _ => e, fun _ => k1⟩⟩))
      · exact .inr (.inr (.inr ⟨by_contra fun e => h ⟨fun k2 => absurd k2 k1, fun e2 => absurd e2 e⟩, k1⟩))
  · rintro (h | h | ⟨h, e⟩ | ⟨e, h⟩)
    · exact .inl h
    · exact .inr (.inl h)
    · exact .inr (.inr fun iff => e (iff.1 h))
    · exact .inr (.inr fun iff => h (iff.2 e))

/-! ### The bytes of a cell -/

@[simp] theorem stampBytes_length (i : Nat) (x : Option Stamp) : (stampBytes i x).length = 5 := by
  cases x with
  | none => simp [stampBytes]
  | some x => exact beBytes_length 5 _

theorem kindOf_code (k : CellKind) : kindOf k.code = some k := by cases k <;> rfl

/-- The kind and the four marks of byte 2 are read back from it. -/
theorem kindByte_bits (k : CellKind) (d e p u : Bool) :
    let n := k.code * 32 + maskOf [false, d, e, p, u]
    n < 256 ∧ n / 32 = k.code ∧ (BitVec.ofNat 8 n).getLsbD 4 = u ∧ (BitVec.ofNat 8 n).getLsbD 3 = p ∧
      (BitVec.ofNat 8 n).getLsbD 2 = e ∧ (BitVec.ofNat 8 n).getLsbD 1 = d := by
  cases k <;> revert d e p u <;> decide

/-- The two presence marks of byte 3 are read back from it. -/
theorem markByte_bits (r p : Bool) :
    let n := r.toNat * 128 + p.toNat * 64
    n < 256 ∧ (BitVec.ofNat 8 n).getLsbD 7 = r ∧ (BitVec.ofNat 8 n).getLsbD 6 = p := by
  revert r p
  decide

/-- A stamp that is present is read back from its five bytes; the bytes of an absent one are not read. -/
theorem stamp_readBack {bs : List Byte} {at_ i : Nat} {x : Option Stamp}
    (h : field bs at_ 5 = beNat (stampBytes i x)) : (if x.isSome then some (stampAt bs at_) else none) = x := by
  cases x with
  | none => rfl
  | some x =>
    have fits : x.toNat < 256 ^ 5 := x.isLt.trans (by decide)
    simp [stampAt, h, stampBytes, beNat_beBytes_of_lt fits]

/-- The fields of a cell's bytes, each at its place (section 10.7). -/
theorem bytes_fields (c : Cell) :
    field c.bytes 0 2 = c.tag.toNat * 16 + c.continuity.toNat ∧
    field c.bytes 2 1 =
      c.kind.code * 32 + maskOf [false, c.discontinuity, c.essential, c.splicePoint, c.unitStart] ∧
    field c.bytes 3 1 = c.rs.isSome.toNat * 128 + c.ps.isSome.toNat * 64 ∧
    field c.bytes 4 5 = beNat (stampBytes 4 c.rs) ∧ field c.bytes 9 5 = beNat (stampBytes 9 c.ps) ∧
    field c.bytes 14 1 = c.length % 256 ∧ c.bytes.drop 16 = c.payload := by
  have tag := c.tag.isLt
  have continuity := c.continuity.isLt
  have head : c.tag.toNat * 16 + c.continuity.toNat < 256 ^ 2 := by omega
  obtain ⟨kind, -⟩ := kindByte_bits c.kind c.discontinuity c.essential c.splicePoint c.unitStart
  obtain ⟨marks, -⟩ := markByte_bits c.rs.isSome c.ps.isSome
  have parts : c.bytes = beBytes 2 (c.tag.toNat * 16 + c.continuity.toNat) ++
      (beBytes 1 (c.kind.code * 32 + maskOf [false, c.discontinuity, c.essential, c.splicePoint, c.unitStart]) ++
      (beBytes 1 (c.rs.isSome.toNat * 128 + c.ps.isSome.toNat * 64) ++ (stampBytes 4 c.rs ++ (stampBytes 9 c.ps ++
      (beBytes 1 c.length ++ ([0] ++ c.payload)))))) := by
    simp only [Cell.bytes, List.append_assoc]
  rw [parts]
  refine ⟨?_, ?_, ?_, ?_, ?_, ?_, ?_⟩
  · rw [field_append_front (beBytes_length _ _), beNat_beBytes_of_lt head]
  · rw [field_append_behind _ _ (by simp), beBytes_length, field_append_front (by simp), beNat_beBytes_of_lt kind]
  · rw [field_append_behind _ _ (by simp), beBytes_length, field_append_behind _ _ (by simp), beBytes_length,
      field_append_front (by simp), beNat_beBytes_of_lt marks]
  · iterate 3 rw [field_append_behind _ _ (by simp), beBytes_length]
    rw [field_append_front (by simp)]
  · iterate 3 rw [field_append_behind _ _ (by simp), beBytes_length]
    rw [field_append_behind _ _ (by simp), stampBytes_length, field_append_front (by simp)]
  · iterate 3 rw [field_append_behind _ _ (by simp), beBytes_length]
    iterate 2 rw [field_append_behind _ _ (by simp), stampBytes_length]
    rw [field_append_front (by simp), beNat_beBytes, pow_one]
  · simp [List.drop_append, List.drop_eq_nil_of_le]

/-- Settles O10: each field is read back from its place, and the three conditions of a valid cell are the hypotheses. -/
theorem cellBytesReadBack : Obligations.CellBytesReadBack := by
  intro c payload length filler
  obtain ⟨hTag, hKind, hMarks, hRs, hPs, hLength, hPayload⟩ := bytes_fields c
  have tag := c.tag.isLt
  have continuity := c.continuity.isLt
  obtain ⟨-, kind, unitStart, splicePoint, essential, discontinuity⟩ :=
    kindByte_bits c.kind c.discontinuity c.essential c.splicePoint c.unitStart
  obtain ⟨-, rs, ps⟩ := markByte_bits c.rs.isSome c.ps.isSome
  have hTag' : BitVec.ofNat 12 ((c.tag.toNat * 16 + c.continuity.toNat) / 16) = c.tag := by
    apply BitVec.eq_of_toNat_eq
    rw [BitVec.toNat_ofNat]
    omega
  have hContinuity : BitVec.ofNat 4 (c.tag.toNat * 16 + c.continuity.toNat) = c.continuity := by
    apply BitVec.eq_of_toNat_eq
    rw [BitVec.toNat_ofNat]
    omega
  have hLength' : c.length % 256 = c.length := Nat.mod_eq_of_lt (by omega)
  have hFiller : c.kind = .filler ↔ c.tag.toNat = 4095 := by
    rw [filler, ← BitVec.toNat_inj]
    rfl
  have valid : c.length ≤ Config.payloadBytes ∧ (c.kind = .filler ↔ c.tag.toNat = 4095) := ⟨length, hFiller⟩
  unfold judge
  simp only [hKind, kind, kindOf_code, hMarks, hTag, hTag', hContinuity, hLength, hLength', hPayload, unitStart,
    splicePoint, essential, discontinuity, rs, ps, if_pos valid, stamp_readBack hRs, stamp_readBack hPs]

end Sys2Proof.Machine
end

section
/-!
PROOFS. The machine and its reset: the step, the store clock of an idle step, the values after power-on reset, and the
end of a tenure and of the fairness gap.
-/
namespace Sys2Proof.Machine
set_option Elab.async false

/-- Settles O1: the step is `exec` of the front command. -/
theorem stepRunsFrontCommand : Obligations.StepRunsFrontCommand := fun _ _ _ => rfl

/-- The port's test, written out (R110). -/
theorem portTest_phase (s : State) :
    portTest s = { s with port := { s.port with
      phase := if s.port.phase = .idle ∧ (s.port.resume ∨
          (s.port.duty < s.port.dutyLimit ∧ ∃ k, (s.slot k).wants = true)) then .requesting else s.port.phase } } := by
  rcases portTest_cases s with ⟨h, stays⟩ | ⟨h, asks⟩
  · rw [cellWanted_iff] at stays
    rw [h, if_neg stays]
  · rw [cellWanted_iff] at asks
    rw [h, if_pos asks]
    rfl

/-- The end of the gap, written out (R118). -/
theorem gapOver_eq (s : State) :
    gapOver s = { s with port := { s.port with
      gapCount := 0
      phase := if s.port.resume ∨ (s.port.duty < s.port.dutyLimit ∧ ∃ k, (s.slot k).wants = true) then .requesting
        else .idle } } := by
  have idle : (s.modPort (fun p => { p with phase := .idle, gapCount := 0 })).port.phase = .idle := rfl
  rw [gapOver, portTest_phase, if_congr (and_iff_right idle) rfl rfl]
  rfl

/-- A tenure ends in RELEASING when there is a gap to wait (R112, R118). -/
theorem endTenure_of_gap {s : State} (h : 1 ≤ s.port.gap) :
    endTenure s = { s with port := { s.port with phase := .releasing, gapCount := s.port.gap } } := by
  rw [endTenure, if_neg (by omega)]
  rfl

/-- Settles O2: the idle step is the store clock. -/
theorem idleStepCountsTheGap : Obligations.IdleStepCountsTheGap := by
  intro s queue
  have idle : step s = .next (storeClock s) := by simp only [step, queue]
  rw [idle]
  refine ⟨fun h => ?_, fun h more => ?_, fun h last => ?_⟩
  · rw [storeClock, if_neg h]
  · rw [storeClock, if_pos h, if_neg (by omega)]
    rfl
  · rw [storeClock, if_pos h, if_pos (by omega), gapOver_eq]

/-- Settles O39: each of the two commands by the port's phase, and a back-off by its fetch. -/
theorem backOffAndGapEndTheTenure : Obligations.BackOffAndGapEndTheTenure := by
  intro s
  have backOff : exec .backOff s = .next (backOffStep s) := rfl
  have gapEnd : exec .gapEnd s = .next (gapEndStep s) := rfl
  rw [backOff, gapEnd]
  refine ⟨fun h => ?_, fun h gap => ⟨fun f fetch live => ?_, fun f fetch abandon => ?_, fun fetch => ?_⟩,
    fun h => ?_, fun h => ?_⟩
  · rw [backOffStep, if_neg h]
  · have kept : backOffStep s = endTenure (s.modPort (fun p =>
        { p with resume := true, buffer := p.buffer.take (32 * f.burst), fetch := some { f with beat := none } })) := by
      simp only [backOffStep, if_pos h, fetch, live, Bool.false_eq_true, if_false]
    rw [kept, endTenure_of_gap (by exact gap)]
    rfl
  · have dropped : backOffStep s = endTenure (dropFetch s) := by
      simp only [backOffStep, if_pos h, fetch, abandon, if_true]
    rw [dropped, endTenure_of_gap (by exact gap)]
    rfl
  · have ends : backOffStep s = endTenure s := by simp only [backOffStep, if_pos h, fetch]
    rw [ends, endTenure_of_gap gap]
  · rw [gapEndStep, if_neg h]
  · rw [gapEndStep, if_pos h, gapOver_eq]

/-- Settles O3: every table is filled with its block's reset record, but for channel 0. -/
theorem powerOnResetSetsEveryBlock : Obligations.PowerOnResetSetsEveryBlock := by
  intro lane off s
  refine ⟨{ State.powerOn lane off with pending := s.pending }, rfl, rfl, rfl, rfl, powerOn_inLane lane off,
    powerOn_route lane off, powerOn_svc lane off, powerOn_event lane off, powerOn_list lane off, rfl,
    powerOn_window lane off, powerOn_clip lane off, powerOn_slot lane off, rfl, rfl, fun n => ?_,
    powerOn_alert lane off, fun n => ?_, powerOn_counter lane off, ?_, fun h other => ?_, rfl, rfl⟩
  · rw [show ({ State.powerOn lane off with pending := s.pending } : State).outLane n = .reset from
      powerOn_outLane lane off n]
    exact ⟨rfl, rfl, rfl, rfl, fun v => ⟨Tbl.get_replicate _ v, Tbl.get_replicate _ v⟩, rfl, rfl, rfl⟩
  · rw [show ({ State.powerOn lane off with pending := s.pending } : State).line n = .reset from
      powerOn_line lane off n]
    exact ⟨rfl, rfl, rfl, rfl, rfl, rfl, rfl, rfl⟩
  · rw [show ({ State.powerOn lane off with pending := s.pending } : State).channel 0 = .strapped lane off from
      (powerOn_channel lane off 0).trans (if_pos rfl), Channel.strapped, Channel.reset]
    congr 1
    split <;> rfl
  · exact (powerOn_channel lane off h).trans (if_neg other)

end Sys2Proof.Machine
end

section
/-!
PROOFS. A frame on an input lane: what is no cell, the route stage, the intake of control cells (R1, R4, R8 to R10,
R173).
-/
namespace Sys2Proof.Machine
set_option Elab.async false

/-! ### An arrival -/

/-- The state in which an arrival has been noted on a lane (R4). -/
def State.arrived (s : State) (lane : InLaneId) : State := s.modInLane lane (fun x => { x with lastArrival := some s.now })

theorem arrival_short {bs : List Byte} (h : bs.length ≠ 256) (lane : InLaneId) (s : State) : arrival lane bs s = s :=
  if_neg h

theorem arrival_invalid {bs : List Byte} (h : bs.length = 256) (judged : judge bs = none) (lane : InLaneId) (s : State) :
    arrival lane bs s = countUnrouted lane (s.arrived lane) := by
  simp only [arrival, Config.cellBytes, if_pos h, judged]
  rfl

theorem arrival_valid {bs : List Byte} {c : Cell} (h : bs.length = 256) (judged : judge bs = some c) (lane : InLaneId)
    (s : State) :
    arrival lane bs s = finishFrom (s.arrived lane) (routeCell lane c (laneBack lane (s.arrived lane))) := by
  simp only [arrival, Config.cellBytes, if_pos h, judged]
  rfl

/-- An UP lane does not come back. -/
theorem laneBack_up {lane : InLaneId} {s : State} (h : (s.inLane lane).state = .up) : laneBack lane s = s :=
  if_neg (by rw [h]; decide)

theorem arrived_up {lane : InLaneId} {s : State} (h : (s.inLane lane).state = .up) :
    ((s.arrived lane).inLane lane).state = .up := by
  rw [State.arrived, State.modInLane_self]
  exact h

theorem finish_followed (s : State) : Followed s (finish s) := finish_frame s

theorem finishFrom_followed {s t : State} (h : t.port.fetch = s.port.fetch) : Followed t (finishFrom s t) := by
  rw [finishFrom_eq (cellDropped_of_fetch_eq h)]
  exact finish_followed t

/-- A valid cell on an UP lane goes to the route stage, and what follows an event of the part follows it. -/
theorem arrival_followed {bs : List Byte} {c : Cell} {lane : InLaneId} {s : State} (h : bs.length = 256)
    (judged : judge bs = some c) (up : (s.inLane lane).state = .up)
    (kept : (routeCell lane c (s.arrived lane)).port.fetch = s.port.fetch) :
    ∃ t, exec (.cellArrival lane bs) s = .next t ∧ Followed (routeCell lane c (s.arrived lane)) t := by
  refine ⟨_, rfl, ?_⟩
  rw [arrival_valid h judged, laneBack_up (arrived_up up)]
  exact finishFrom_followed kept

/-- Settles O12: neither frame reaches the route stage. -/
theorem unusableFramesOnlyCount : Obligations.UnusableFramesOnlyCount := by
  intro lane bs s
  have step : exec (.cellArrival lane bs) s = .next (arrival lane bs s) := rfl
  rw [step]
  refine ⟨fun h => by rw [arrival_short h], fun h judged => ?_⟩
  rw [arrival_invalid h judged, countUnrouted, State.arrived, modInLane_modInLane]
  rfl

/-! ### The route stage -/

/-- The ACTIVE route of a lane and tag is the one that the lookup finds (R9, R13). -/
theorem matchRoute_eq {s : State} {lane : InLaneId} {tag : BitVec 12} {r : RouteId} (unique : RoutesUnique s)
    (active : (s.route r).state = .active) (onLane : (s.route r).inLane = lane) (hasTag : (s.route r).inTag = tag) :
    matchRoute s lane tag = some r := by
  cases found : matchRoute s lane tag with
  | none => exact absurd ⟨active, onLane, hasTag⟩ (matchRoute_none.1 found r)
  | some q =>
    obtain ⟨active', onLane', hasTag'⟩ := matchRoute_some found
    by_contra other
    have ne : q ≠ r := fun e => other (congrArg some e)
    obtain ⟨apart, -, -⟩ := unique q r ne active' active
    exact apart ⟨onLane'.trans onLane.symm, hasTag'.trans hasTag.symm⟩

theorem matchChannel_none {s : State} {lane : InLaneId} {tag : BitVec 12} :
    matchChannel s lane tag = none ↔
      ∀ h, ¬((s.channel h).enabled = true ∧ (s.channel h).inLane = lane ∧ (s.channel h).inTag = tag) := by
  unfold matchChannel
  rw [Tbl.find?_none]
  simp [State.channel]

/-- The enabled channel of a pair is the one that the lookup finds (R9, R172). -/
theorem matchChannel_eq {s : State} {lane : InLaneId} {tag : BitVec 12} {h : ChannelId} (unique : ChannelsUnique s)
    (enabled : (s.channel h).enabled = true) (onLane : (s.channel h).inLane = lane)
    (hasTag : (s.channel h).inTag = tag) : matchChannel s lane tag = some h := by
  cases found : matchChannel s lane tag with
  | none => exact absurd ⟨enabled, onLane, hasTag⟩ (matchChannel_none.1 found h)
  | some g =>
    obtain ⟨enabled', onLane', hasTag'⟩ := matchChannel_some found
    by_contra other
    have ne : g ≠ h := fun e => other (congrArg some e)
    obtain ⟨apart, -⟩ := unique g h ne enabled' enabled
    exact apart ⟨onLane'.trans onLane.symm, hasTag'.trans hasTag.symm⟩

theorem routeCell_media {lane : InLaneId} {c : Cell} {r : RouteId} {s : State} (media : c.kind = .media)
    (found : matchRoute s lane c.tag = some r) : routeCell lane c s = mediaCell r c s := by
  simp only [routeCell, media, found]

/-- A through route's cell, and an OFF service's, is offered to the FIFO (R10). -/
theorem mediaCell_through {r : RouteId} {c : Cell} {s : State}
    (off : ∀ v, (s.route r).service = some v → (s.svc v).state = .off) : mediaCell r c s = offer r c s := by
  unfold mediaCell
  cases bound : (s.route r).service with
  | none => rfl
  | some v => exact if_pos (off v bound)

theorem offer_port (r : RouteId) (c : Cell) (s : State) : (offer r c s).port = s.port := by
  rcases offer_cases r c s with ⟨_, e⟩ | ⟨_, e⟩ <;> rw [e] <;> rfl

/-- Settles O13: the cell is offered, and the offer has two cases. -/
theorem forwardedCellJoinsFifo : Obligations.ForwardedCellJoinsFifo := by
  intro lane bs c r s size judged media up active onLane hasTag unique off
  have offered : routeCell lane c (s.arrived lane) = offer r c (s.arrived lane) := by
    exact (routeCell_media media (matchRoute_eq (s := s.arrived lane) unique active onLane hasTag)).trans
      (mediaCell_through off)
  obtain ⟨t, step, followed⟩ := arrival_followed size judged up (by rw [offered, offer_port]; rfl)
  rw [offered] at followed
  refine ⟨t, step, ?_⟩
  have room : ((s.arrived lane).outLane ((s.arrived lane).route r).outLane).fifo.length =
    (s.outLane (s.route r).outLane).fifo.length := rfl
  rcases offer_cases r c (s.arrived lane) with ⟨free, e⟩ | ⟨full, e⟩
  · rw [e] at followed
    obtain ⟨l, cs, d, ph, rfl⟩ := followed
    exact ⟨rfl, ⟨rfl, rfl, rfl, rfl, rfl, rfl, rfl⟩, ⟨rfl, rfl, rfl, rfl⟩, rfl, rfl, rfl, fun _ => ⟨rfl, rfl⟩,
      fun h => absurd h (by omega)⟩
  · rw [e] at followed
    obtain ⟨l, cs, d, ph, rfl⟩ := followed
    exact ⟨rfl, ⟨rfl, rfl, rfl, rfl, rfl, rfl, rfl⟩, ⟨rfl, rfl, rfl, rfl⟩, rfl, rfl, rfl, fun h => absurd h (by omega),
      fun _ => ⟨rfl, rfl⟩⟩

/-- A cell that no table matches is counted, or dropped uncounted if it is FILLER (R8, R9). -/
theorem routeCell_unmatched {lane : InLaneId} {c : Cell} {s : State}
    (noRoute : c.kind = .media →
      ∀ r, ¬((s.route r).state = .active ∧ (s.route r).inLane = lane ∧ (s.route r).inTag = c.tag))
    (noChannel : c.kind = .control →
      ∀ h, ¬((s.channel h).enabled = true ∧ (s.channel h).inLane = lane ∧ (s.channel h).inTag = c.tag)) :
    routeCell lane c s = s.modInLane lane (fun x =>
      { x with unrouted := if c.kind = .filler then x.unrouted else sat16 x.unrouted }) := by
  unfold routeCell
  cases kind : c.kind with
  | filler => exact (modInLane_eq_self rfl).symm
  | response => rfl
  | control =>
    rw [matchChannel_none.2 (noChannel kind)]
    rfl
  | media =>
    rw [matchRoute_none.2 (noRoute kind)]
    rfl

/-- Settles O14. -/
theorem unmatchedCellsAreCounted : Obligations.UnmatchedCellsAreCounted := by
  intro lane bs c s size judged up noRoute noChannel
  have counted := routeCell_unmatched (s := s.arrived lane) noRoute noChannel
  obtain ⟨t, step, followed⟩ := arrival_followed size judged up (by rw [counted]; rfl)
  refine ⟨t, step, ?_⟩
  rw [counted, State.arrived, modInLane_modInLane] at followed
  exact followed

/-! ### The intake -/

/-- Settles O15: the match is the channel, and the intake has the two cases of its room. -/
theorem controlCellIsTakenIn : Obligations.ControlCellIsTakenIn := by
  intro lane bs c h p s size judged control parsed up enabled onLane hasTag unique
  have taken : routeCell lane c (s.arrived lane) = intakeCell h c (s.arrived lane) := by
    simp only [routeCell, control, matchChannel_eq (s := s.arrived lane) unique enabled onLane hasTag]
  have cls : intakeClass (s.channel h).bound c = max (s.channel h).bound p.cls := by simp only [intakeClass, parsed]
  by_cases room : (s.channel h).queue.length + reserved s h < 16
  · have e : intakeCell h c (s.arrived lane) =
        { s.arrived lane with intake := s.intake ++ [⟨h, max (s.channel h).bound p.cls, c⟩] } := by
      rw [← cls]
      exact if_pos room
    obtain ⟨t, step, followed⟩ := arrival_followed size judged up (by rw [taken, e]; rfl)
    rw [taken, e] at followed
    obtain ⟨l, cs, d, ph, rfl⟩ := followed
    exact ⟨_, step, ⟨rfl, rfl, rfl, rfl, rfl, rfl, rfl⟩, rfl, rfl, fun _ => ⟨rfl, rfl⟩, fun h => absurd h (by omega)⟩
  · have e : intakeCell h c (s.arrived lane) =
        (s.arrived lane).modChannel h (fun x => { x with overrun := sat16 x.overrun }) := if_neg room
    obtain ⟨t, step, followed⟩ := arrival_followed size judged up (by rw [taken, e]; rfl)
    rw [taken, e] at followed
    obtain ⟨l, cs, d, ph, rfl⟩ := followed
    exact ⟨_, step, ⟨rfl, rfl, rfl, rfl, rfl, rfl, rfl⟩, rfl, rfl, fun h => absurd h room, fun _ => ⟨rfl, rfl⟩⟩

end Sys2Proof.Machine
end

section
/-!
PROOFS. The writes of ROUTE and SERVICE (R12 to R16, R21, R22).
-/
namespace Sys2Proof.Machine
set_option Elab.async false

/-! ### The checks of a write -/

theorem atIndex_val {n : Nat} (i : Fin n) (s : State) (f : Fin n → State × Code) : atIndex n i.val s f = f i :=
  atIndex_lt i.isLt s f

theorem entryAt_val {n : Nat} (i : Fin n) (s : State) (f : Fin n → Answered) : entryAt n i.val s f = f i :=
  entryAt_lt i.isLt s f

/-- A check that passes leaves the write to the checks behind it. -/
theorem checked_pass {b : Bool} (h : b = false) (c : Code) (l : List (Bool × Code)) (s t : State) :
    checked ((b, c) :: l) s t = checked l s t := by
  rw [h]
  rfl

/-- A check that fails refuses the write with its code. -/
theorem checked_fail {b : Bool} (h : b = true) (c : Code) (l : List (Bool × Code)) (s t : State) :
    checked ((b, c) :: l) s t = (s, c) := by
  rw [h]
  rfl

theorem checked_nil (s t : State) : checked [] s t = (t, .ok) := rfl

/-- A guard check passes for an entry that is unused, or that the class may change (R178). -/
theorem guard_passes {used : Prop} [Decidable used] {cls g : Fin 4} (h : ¬used ∨ cls ≤ g) :
    (decide used && !allowed cls g) = false := by
  rcases h with h | h
  · rw [decide_eq_false h, Bool.false_and]
  · rw [allowed_eq_true h, Bool.not_true, Bool.and_false]

/-- An optional written index in range is the index that it spells. -/
theorem optIndex_eq_map {n : Nat} [NeZero n] {k : Option Nat} (h : ∀ i, k = some i → i < n) :
    optIndex n k = k.map (Fin.ofNat n) := by
  cases k with
  | none => rfl
  | some i =>
    have lt := h i rfl
    simp [optIndex, index?_lt lt, Fin.ofNat, Nat.mod_eq_of_lt lt]

theorem optIndexOk_of_lt {n : Nat} {k : Option Nat} (h : ∀ i, k = some i → i < n) : optIndexOk n k = true := by
  cases k with
  | none => rfl
  | some i => exact decide_eq_true (h i rfl)

/-! ### ROUTE -/

theorem notOff_eq_false {s : State} {v : Option SvcId} : notOff s v = false ↔ ∀ w, v = some w → (s.svc w).state = .off := by
  cases v <;> simp [notOff]

theorem routeInUse_eq_false {s : State} {x : Route} :
    routeInUse s x = false ↔ (x.state = .active → ∀ v, x.service = some v → (s.svc v).state = .off) := by
  rw [routeInUse, Bool.and_eq_false_imp, decide_eq_true_iff, notOff_eq_false]

theorem routeClash_eq_false {s : State} {r : RouteId} {x : Route} :
    routeClash s r x = false ↔
      (∀ j, j ≠ r → (s.route j).state = .active →
        ¬((s.route j).inLane = x.inLane ∧ (s.route j).inTag = x.inTag) ∧
        ¬((s.route j).outLane = x.outLane ∧ (s.route j).outTag = x.outTag) ∧
        ¬(x.service.isSome ∧ (s.route j).service = x.service)) ∧
      ∀ h, (s.channel h).enabled = true → ¬((s.channel h).respLane = x.outLane ∧ (s.channel h).respTag = x.outTag) := by
  rw [routeClash, Bool.or_eq_false_iff, Bool.not_eq_false', Bool.not_eq_false', Tbl.indices_isEmpty,
    Tbl.indices_isEmpty]
  refine and_congr (forall_congr' fun j => ?_) (forall_congr' fun h => ?_)
  · rw [decide_eq_false_iff_not]
    change ¬(j ≠ r ∧ (s.route j).state = .active ∧ (((s.route j).inLane = x.inLane ∧ (s.route j).inTag = x.inTag) ∨
      ((s.route j).outLane = x.outLane ∧ (s.route j).outTag = x.outTag) ∨
      (x.service.isSome ∧ (s.route j).service = x.service))) ↔ _
    rw [not_and, not_and, not_or, not_or]
  · rw [Bool.and_eq_false_imp, decide_eq_false_iff_not]
    rfl

theorem rebinds_eq_true {old x : Route} :
    rebinds old x = true ↔ old.state = .active ∧ (old.outLane ≠ x.outLane ∨ old.outTag ≠ x.outTag ∨
      old.inLane ≠ x.inLane ∨ old.inTag ≠ x.inTag ∨ old.service ≠ x.service) := by
  simp [rebinds, or_assoc]

theorem newStream_eq (old x : Route) :
    newStream old x = decide (old.state = .free ∨ old.outLane ≠ x.outLane ∨ old.outTag ≠ x.outTag) := by
  simp [newStream, Bool.or_assoc]

/-- What an accepted write of state ACTIVE leaves (R15). -/
theorem storeRoute_eq (r : RouteId) (x : Route) (s : State) :
    storeRoute r x s = { s with
      routes := s.routes.put r { x with
        restartMark := (s.route r).restartMark || newStream (s.route r) x }
      outLanes := if rebinds (s.route r) x then
        s.outLanes.put (s.route r).outLane { s.outLane (s.route r).outLane with
          fifo := (s.outLane (s.route r).outLane).fifo.filter (fun q => decide (q.route ≠ r)) }
        else s.outLanes } := by
  unfold storeRoute
  dsimp only
  split <;> rfl

/-- Settles O17: the six checks pass by the hypotheses, in their order. -/
theorem routeWriteBinds : Obligations.RouteWriteBinds := by
  intro x r w s old new hold hnew guard oldOff newOff inLane inTag outLane outTag allotment service noService clash
    responses load
  subst hold
  have spelled : optIndex 64 w.service = w.service.map (Fin.ofNat 64) := optIndex_eq_map service
  have stored : new = { routeOfImg w x.cls (s.route r) with
      restartMark := (s.route r).restartMark || newStream (s.route r) (routeOfImg w x.cls (s.route r)) } := by
    rw [hnew, newStream_eq, routeOfImg, spelled, storedGuard_eq]
  have guardOk : (decide ((s.route r).state = .active) && !allowed x.cls (s.route r).guard) = false :=
    guard_passes (guard.imp_left fun h => by rw [h]; decide)
  have busyOk : (routeInUse s (s.route r) || notOff s (optIndex 64 w.service)) = false := by
    rw [Bool.or_eq_false_iff, routeInUse_eq_false, notOff_eq_false, spelled]
    exact ⟨oldOff, fun v h => newOff v (by rw [hnew]; exact h)⟩
  have rangeOk : routeOutOfRange w = false := by
    simp [routeOutOfRange, optIndexOk_of_lt service]
    omega
  have allotmentOk : (w.service.isNone && decide (w.allotment ≠ 0)) = false := by
    rw [Bool.and_eq_false_imp, Option.isNone_iff_eq_none]
    exact fun h => by rw [noService h]; rfl
  have clashOk : routeClash s r (routeOfImg w x.cls (s.route r)) = false := by
    rw [stored] at clash responses
    exact routeClash_eq_false.2 ⟨clash, responses⟩
  have loadOk : routeOverload s r (routeOfImg w x.cls (s.route r)) = false := by
    rw [hnew] at load
    refine decide_eq_false ?_
    dsimp only [routeOfImg] at load ⊢
    omega
  have written : writeRouteActive x.cls r.val w s = (storeRoute r (routeOfImg w x.cls (s.route r)) s, .ok) := by
    rw [writeRouteActive, atIndex_val]
    dsimp only
    rw [checked_pass guardOk, checked_pass busyOk, checked_pass rangeOk, checked_pass allotmentOk, checked_pass clashOk,
      checked_pass loadOk, checked_nil]
  have moved : (s.route r).state = RouteState.active ∧ ((s.route r).outLane ≠ new.outLane ∨
      (s.route r).outTag ≠ new.outTag ∨ (s.route r).inLane ≠ new.inLane ∨ (s.route r).inTag ≠ new.inTag ∨
      (s.route r).service ≠ new.service) ↔ rebinds (s.route r) (routeOfImg w x.cls (s.route r)) = true := by
    rw [rebinds_eq_true, stored]
  change Host.Outcome.next (record (codeOnly (writeRouteActive x.cls r.val w s))) = _
  rw [written, codeOnly_mk, record_mk, answered_code, storeRoute_eq, ← stored, if_congr moved rfl rfl]

/-- Settles O18: two checks, then the entry's reset and the purge. -/
theorem routeFreeUnbinds : Obligations.RouteFreeUnbinds := by
  intro x r g s guard off
  have guardOk : (decide ((s.route r).state = .active) && !allowed x.cls (s.route r).guard) = false :=
    guard_passes (guard.imp_left fun h => by rw [h]; decide)
  have written : writeRouteFree x.cls r.val g s = (freeRoute r (storedGuard x.cls g) s, .ok) := by
    rw [writeRouteFree, atIndex_val]
    dsimp only
    rw [checked_pass guardOk, checked_pass (routeInUse_eq_false.2 off), checked_nil]
  change Host.Outcome.next (record (codeOnly (writeRouteFree x.cls r.val g s))) = _
  rw [written, storedGuard_eq]
  rfl

/-! ### SERVICE -/

theorem hasLiveEvent_eq_false {s : State} {v : SvcId} :
    hasLiveEvent s v = false ↔ ∀ e, (s.event e).service = v → (s.event e).live = false := by
  rw [hasLiveEvent, Bool.not_eq_false', Tbl.indices_isEmpty]
  refine forall_congr' fun e => ?_
  rw [Bool.and_comm, Bool.and_eq_false_imp, decide_eq_true_iff]
  rfl

/-- The written fields lie in their ranges, and the loss clip is LOADED (R21). -/
theorem serviceFieldBad_eq_false {s : State} {w : ServiceImg} (unit : 1 ≤ w.unitInt) (unitMost : w.unitInt ≤ 1048576)
    (frac : w.unitFrac ≤ 65535) (preroll : w.preroll ≤ 100000000)
    (clip : ∀ c, w.lossClip = some c → c < 512 ∧ (s.clip (Fin.ofNat 512 c)).state = .loaded) :
    serviceFieldBad s w = false := by
  unfold serviceFieldBad
  rw [Bool.or_eq_false_iff]
  refine ⟨by simp; omega, ?_⟩
  cases e : w.lossClip with
  | none => rfl
  | some c =>
    obtain ⟨lt, loaded⟩ := clip c e
    have same : (⟨c, lt⟩ : ClipId) = Fin.ofNat 512 c := Fin.ext (Nat.mod_eq_of_lt lt).symm
    simp only [index?_lt lt, same, loaded]
    rfl

/-- A SERVICE write whose checks pass (R21). -/
theorem writeService_accepted {x : Ctx} {v : SvcId} {w : ServiceImg} {s : State} {n : Nat} (state : n ≤ 1)
    (guard : x.cls ≤ (s.svc v).cfg.guard) (idle : (s.svc v).state = .off ∨ (s.svc v).state = .network)
    (fields : serviceFieldBad s w = false)
    (windows : s.list v = [] ∨ ((configOfImg w x.cls).exitWindow = (s.svc v).cfg.exitWindow ∧
      (configOfImg w x.cls).returnWindow = (s.svc v).cfg.returnWindow))
    (events : n = 0 → (s.svc v).state = .network → ∀ e, (s.event e).service = v → (s.event e).live = false) :
    writeService x.cls v.val n w s =
      (moveService v (decide (n = 1)) (s.modSvc v (fun y => { y with cfg := configOfImg w x.cls })), .ok) := by
  have guardOk : (!allowed x.cls (s.svc v).cfg.guard) = false := by rw [allowed_eq_true guard]; rfl
  have stateOk : decide (1 < n) = false := decide_eq_false (by omega)
  have busyOk : decide ((s.svc v).state ≠ .off ∧ (s.svc v).state ≠ .network) = false :=
    decide_eq_false fun ⟨off, network⟩ => idle.elim off network
  have windowsOk : decide (((configOfImg w x.cls).exitWindow ≠ (s.svc v).cfg.exitWindow ∨
      (configOfImg w x.cls).returnWindow ≠ (s.svc v).cfg.returnWindow) ∧ s.list v ≠ []) = false := by
    refine decide_eq_false fun ⟨changed, listed⟩ => ?_
    obtain ⟨exit, ret⟩ := windows.resolve_left listed
    exact changed.elim (absurd exit) (absurd ret)
  have eventsOk : (decide (n = 0 ∧ (s.svc v).state = .network) && hasLiveEvent s v) = false := by
    rw [Bool.and_eq_false_imp, decide_eq_true_iff, hasLiveEvent_eq_false]
    exact fun ⟨zero, network⟩ => events zero network
  rw [writeService, atIndex_val]
  dsimp only
  rw [checked_pass guardOk, checked_pass stateOk, checked_pass busyOk, checked_pass fields, checked_pass windowsOk,
    checked_pass eventsOk, checked_nil]

theorem moveService_enable {v : SvcId} {s : State} (h : (s.svc v).state = .off) :
    moveService v true s = s.modSvc v Service.enable := by simp only [moveService, h]

theorem moveService_disable {v : SvcId} {s : State} (h : (s.svc v).state = .network) :
    moveService v false s = (s.leaveWait (.loss v)).modSvc v Service.disable := by simp only [moveService, h]

/-- A written state that the context is in already moves nothing (R22). -/
theorem moveService_stay {v : SvcId} {network : Bool} {s : State}
    (h : (s.svc v).state = if network then .network else .off) : moveService v network s = s := by
  cases network <;> simp only [moveService, h, if_true, Bool.false_eq_true, if_false]

/-- Settles O19: the checks pass for both written states, and the context's state decides what the write moves. -/
theorem serviceWriteStores : Obligations.ServiceWriteStores := by
  intro x v w s old hold guard idle unit unitMost frac preroll clip windows kept entered enabled disabled
  subst hold
  have spelled : configOfImg w x.cls = storedConfig x w := by
    rw [configOfImg, storedConfig, storedGuard_eq, optIndex_eq_map fun c h => (clip c h).1]
  have fields := serviceFieldBad_eq_false unit unitMost frac preroll clip
  have accepted := fun n (state : n ≤ 1) => writeService_accepted (n := n) state guard idle fields
    (by rw [spelled]; exact windows)
  have enables : writeService x.cls v.val 1 w s = (enabled, .ok) := by
    rw [accepted 1 le_rfl (fun h => absurd h one_ne_zero), spelled]
    rcases idle with off | network
    · rw [show decide (1 = 1) = true from rfl, moveService_enable (by rw [State.modSvc_self]; exact off), modSvc_modSvc]
      simp only [enabled, entered, if_pos off]
      rfl
    · rw [moveService_stay (by rw [State.modSvc_self]; exact network)]
      simp only [enabled, entered, network, reduceCtorEq, if_false]
      rfl
  refine ⟨?_, ?_, fun events => ?_⟩
  · change Host.Outcome.next (record (codeOnly (writeService x.cls v.val 1 w s))) = _
    rw [enables]
    rfl
  · change Host.Outcome.next (record (codeOnly (writeService x.cls v.val 1 w s))) = _
    rw [enables]
    rfl
  · have disables : writeService x.cls v.val 0 w s = (disabled, .ok) := by
      rw [accepted 0 zero_le_one (fun _ => events), spelled]
      rcases idle with off | network
      · rw [moveService_stay (by rw [State.modSvc_self]; exact off)]
        simp only [disabled, off, reduceCtorEq, if_false]
        rfl
      · rw [show decide (0 = 1) = false from rfl, moveService_disable (by rw [State.modSvc_self]; exact network)]
        simp only [disabled, if_pos network]
        rw [show ((s.modSvc v fun y => { y with cfg := storedConfig x w }).leaveWait (.loss v)) =
          (s.leaveWait (.loss v)).modSvc v (fun y => { y with cfg := storedConfig x w }) from rfl, modSvc_modSvc]
        rfl
    refine ⟨?_, ?_⟩
    · change Host.Outcome.next (record (codeOnly (writeService x.cls v.val 0 w s))) = _
      rw [disables]
      rfl
    · change Host.Outcome.next (record (codeOnly (writeService x.cls v.val 0 w s))) = _
      rw [disables]
      rfl

end Sys2Proof.Machine
end

section
/-!
PROOFS. The writes of CLIP, WINDOW, ALERT and COUNTER (R85, R88, R89, R140, R163).
-/
namespace Sys2Proof.Machine
set_option Elab.async false

theorem indices_nonempty {α : Type} {n : Nat} {t : Tbl α n} {p : Fin n → α → Bool} :
    (!(t.indices p).isEmpty) = true ↔ ∃ j, p j (t.get j) = true := by
  rw [Bool.not_eq_true', ← Bool.not_eq_true, Tbl.indices_isEmpty]
  simp

theorem index?_val {n : Nat} (i : Fin n) : index? n i.val = some i := index?_lt i.isLt

/-! ### CLIP and WINDOW -/

theorem mem_clipIds {x : ClipSource} {c : ClipId} :
    c ∈ x.clipIds ↔ x = .looped c ∨ ∃ l, x = .list l ∧ c ∈ l := by
  cases x <;> simp [ClipSource.clipIds, eq_comm]

theorem clipRead_iff {s : State} {c : ClipId} :
    clipRead s c = true ↔
      ∃ k, (s.slot k).owner.isSome ∧ ((s.slot k).clips = .looped c ∨ ∃ l, (s.slot k).clips = .list l ∧ c ∈ l) := by
  rw [clipRead, indices_nonempty]
  refine exists_congr fun k => ?_
  rw [Bool.and_eq_true, List.contains_iff_mem, mem_clipIds]
  rfl

theorem clipLocked_iff {s : State} {c : ClipId} :
    clipLocked s c = true ↔
      (∃ e, ((s.event e).state = .cueing ∨ (s.event e).state = .active) ∧ c ∈ (s.event e).clips) ∨
      ∃ k, (s.slot k).owner.isSome ∧ ((s.slot k).clips = .looped c ∨ ∃ l, (s.slot k).clips = .list l ∧ c ∈ l) := by
  rw [clipLocked, Bool.or_eq_true, indices_nonempty, clipRead_iff]
  refine or_congr (exists_congr fun e => ?_) Iff.rfl
  rw [Bool.and_eq_true, Bool.or_eq_true, decide_eq_true_iff, decide_eq_true_iff, List.contains_iff_mem]
  rfl

/-- The difference of stamps is not negative below half of their range (section 4.2). -/
theorem signed_nonneg {x : Stamp} (h : x.toNat < 2 ^ 35) : 0 ≤ signed x := by
  rw [signed, BitVec.toInt_eq_toNat_of_lt (by omega)]
  exact Int.natCast_nonneg _

theorem loadedClipBad_eq_false {s : State} {w : ClipImg} {k : WindowId} (window : w.window = k.val)
    (aligned : w.offset % 256 = 0) (inside : w.offset < (s.window k).length) (some_ : 1 ≤ w.length)
    (most : w.length ≤ 2 ^ 23) (trimLow : -16384 ≤ w.trim) (trimHigh : w.trim ≤ 16383)
    (span : (w.cEnd - w.c0).toNat < 2 ^ 35) : loadedClipBad s w = false := by
  have forward := signed_nonneg span
  simp only [loadedClipBad, window, index?_val, Bool.or_eq_false_iff, decide_eq_false_iff_not]
  refine ⟨⟨⟨⟨⟨?_, ?_⟩, ?_⟩, ?_⟩, ?_⟩, ?_⟩ <;> omega

/-- A CLIP write whose entry the class may change and whose record is not locked is judged by its fields (R88). -/
theorem writeClip_unlocked {x : Ctx} {c : ClipId} {w : ClipImg} {s : State}
    (guard : (s.clip c).state = .free ∨ x.cls ≤ (s.clip c).guard) (unlocked : clipLocked s c = false)
    (fields : (decide (1 < w.state) || (decide (w.state = 1) && loadedClipBad s w)) = false)
    (fits : (decide (w.state = 1) && decide ((s.window (Fin.ofNat 8 w.window)).length < w.length * 256)) = false) :
    writeClip x.cls c.val w s = (s.setClip c (clipOfImg w x.cls), .ok) := by
  rw [writeClip, atIndex_val]
  dsimp only
  rw [checked_pass (guard_passes (guard.imp_left not_not.2)), checked_pass unlocked, checked_pass fields,
    checked_pass fits, checked_nil]

theorem someClipOf_eq_false {s : State} {k : WindowId} {p : ClipId → Clip → Bool} :
    someClipOf s k p = false ↔
      ∀ c, (s.clip c).state = .loaded → (s.clip c).window = k → p c (s.clip c) = false := by
  rw [someClipOf, Bool.not_eq_false', Tbl.indices_isEmpty]
  refine forall_congr' fun c => ?_
  rw [Bool.and_eq_false_imp, Bool.and_eq_true, decide_eq_true_iff, decide_eq_true_iff, and_imp]
  rfl

theorem windowFieldBad_eq_false {w : WindowImg} {j : Nat} (least : 20 ≤ j) (most : j ≤ 31) (length : w.length = 2 ^ j)
    (aligned : w.base % w.length = 0) (inside : w.base + w.length ≤ 2 ^ 36) : windowFieldBad w = false := by
  have power : windowLengthOk w.length = true := by
    refine List.any_eq_true.2 ⟨j - 20, List.mem_range.2 (by omega), decide_eq_true ?_⟩
    rw [length, Nat.add_sub_cancel' least]
  rw [windowFieldBad, power, decide_eq_false (not_not.2 aligned), decide_eq_false (by omega)]
  rfl

/-- Settles O52: CLIP by its lock and its written state, WINDOW by the clips that name it. -/
theorem clipAndWindowWritesStore : Obligations.ClipAndWindowWritesStore := by
  intro x s
  refine ⟨?_, ?_⟩
  · intro c w free locked guard
    have command : exec (.clipWrite x c.val w) s = .next (record (codeOnly (writeClip x.cls c.val w s))) := rfl
    rw [command]
    refine ⟨fun h => ?_, fun h freed => ?_, fun k h loaded window inWindow inside some_ big trimLow trimHigh span fits => ?_⟩
    · have refused : writeClip x.cls c.val w s = (s, .busy) := by
        rw [writeClip, atIndex_val]
        dsimp only
        rw [checked_pass (guard_passes (free.imp_left not_not.2)), checked_fail (clipLocked_iff.2 h)]
      rw [refused]
      rfl
    · have unlocked : clipLocked s c = false := Bool.eq_false_iff.2 (mt clipLocked_iff.1 h)
      rw [writeClip_unlocked free unlocked (by rw [freed]; rfl) (by rw [freed]; rfl), clipOfImg, if_neg (by omega),
        storedGuard_eq]
      rfl
    · have unlocked : clipLocked s c = false := Bool.eq_false_iff.2 (mt clipLocked_iff.1 h)
      have same : Fin.ofNat 8 w.window = k := by rw [window]; exact Fin.ext (Nat.mod_eq_of_lt k.isLt)
      have fields := loadedClipBad_eq_false window inWindow inside some_ big trimLow trimHigh span
      rw [writeClip_unlocked free unlocked (by rw [loaded, fields]; rfl)
        (by rw [same, decide_eq_false (Nat.not_lt.2 fits), Bool.and_false]), clipOfImg, if_pos loaded, same, storedGuard_eq]
      rfl
  · intro k j w guard least most length aligned inside clips
    have unread : someClipOf s k (fun c _ => clipRead s c) = false := someClipOf_eq_false.2 fun c loaded inWindow => by
      obtain ⟨-, -, apart⟩ := clips c loaded inWindow
      refine Bool.eq_false_iff.2 (mt clipRead_iff.1 ?_)
      rintro ⟨i, owned, reads⟩
      rcases apart i with none | ⟨notLooped, notListed⟩
      · rw [none] at owned
        cases owned
      · exact reads.elim notLooped fun ⟨l, isList, mem⟩ => notListed l isList mem
    have fit : someClipOf s k (fun _ y => decide (w.length ≤ y.offset) || decide (w.length < y.length * 256)) = false :=
      someClipOf_eq_false.2 fun c loaded inWindow => by
        obtain ⟨offset, last, -⟩ := clips c loaded inWindow
        rw [decide_eq_false (Nat.not_le.2 offset), decide_eq_false (Nat.not_lt.2 last)]
        rfl
    have written : writeWindow x.cls k.val w s = (s.setWindow k
        { base := BitVec.ofNat 36 w.base, length := w.length, enabled := w.enabled
          guard := storedGuard x.cls w.guard }, .ok) := by
      rw [writeWindow, atIndex_val, checked_pass (by rw [allowed_eq_true guard]; rfl), checked_pass unread,
        checked_pass (windowFieldBad_eq_false least most length aligned inside), checked_pass fit, checked_nil]
    change Host.Outcome.next (record (codeOnly (writeWindow x.cls k.val w s))) = _
    rw [written, storedGuard_eq]
    rfl

/-! ### ALERT -/

theorem live_eq_false {s : State} {a : AlertId} : s.live a = false ↔ (s.alert a).state = .idle := by
  simp [State.live]

theorem alertFieldBad_eq_false {s : State} {w : AlertImg} {c : ClipId} (priority : ∀ p, w.priority = some p → p < 8)
    (group : w.group ≠ 0) (clip : w.clip = c.val) (loaded : (s.clip c).state = .loaded) (lease : w.leaseCode ≤ 7) :
    alertFieldBad s w = false := by
  simp only [alertFieldBad, clip, index?_val, loaded, optIndexOk_of_lt priority, decide_eq_false group,
    decide_eq_false (Nat.not_lt.2 lease)]
  rfl

theorem priorityTaken_eq_false {s : State} {a : AlertId} {w : AlertImg}
    (apart : ∀ p, w.priority = some p → p < 8 ∧ ∀ b, b ≠ a → (s.alert b).priority ≠ some (Fin.ofNat 8 p)) :
    priorityTaken s a w = false := by
  rw [priorityTaken, Bool.and_eq_false_imp, Option.isSome_iff_exists, Bool.not_eq_false', Tbl.indices_isEmpty]
  rintro ⟨p, hp⟩ b
  obtain ⟨lt, other⟩ := apart p hp
  refine decide_eq_false fun ⟨ne, taken⟩ => other b ne ?_
  rw [hp, Option.map_eq_some_iff] at taken
  obtain ⟨q, hq, rfl⟩ := taken
  exact hq.trans (congrArg some (Fin.ext (Nat.mod_eq_of_lt lt).symm))

/-! ### COUNTER -/

theorem sourceOfForm_form {c : CounterId} {x : ClockSource} (h : x = .expiry → c ≠ 0) :
    sourceOfForm c x.form = some x := by
  cases x with
  | expiry => simp [sourceOfForm, ClockSource.form, Fin.val_ne_zero_iff.2 (h rfl)]
  | _ => simp [sourceOfForm, ClockSource.form, index?_val]

theorem gateOfForm_form (x : Gate) : gateOfForm x.form = some x := by
  cases x <;> simp [gateOfForm, Gate.form, index?_val]

theorem targetOfForm_form (x : Target) : targetOfForm x.form = some x := by
  cases x <;> simp [targetOfForm, Target.form, index?_val]

/-- Settles O53: ALERT by the channel's state, COUNTER by the counter's. -/
theorem alertAndCounterWritesStore : Obligations.AlertAndCounterWritesStore := by
  intro x s
  refine ⟨?_, ?_⟩
  · intro a w guard
    have command : exec (.alertWrite x a.val w) s = .next (record (codeOnly (writeAlert x.cls a.val w s))) := rfl
    have guardOk : (!allowed x.cls (s.alert a).guard) = false := by rw [allowed_eq_true guard]; rfl
    rw [command]
    refine ⟨fun live => ?_, fun c idle group clip loaded lease priority => ?_⟩
    · have refused : writeAlert x.cls a.val w s = (s, .busy) := by
        rw [writeAlert, atIndex_val, checked_pass guardOk, checked_fail (b := s.live a) (decide_eq_true live)]
      rw [refused]
      rfl
    · have written : writeAlert x.cls a.val w s = (s.modAlert a (fun y => { y with
          priority := optIndex 8 w.priority, group := w.group, clip := Fin.ofNat 512 w.clip
          leaseCode := Fin.ofNat 8 w.leaseCode, masked := w.masked, guard := storedGuard x.cls w.guard }), .ok) := by
        rw [writeAlert, atIndex_val, checked_pass guardOk, checked_pass (live_eq_false.2 idle),
          checked_pass (alertFieldBad_eq_false (fun p h => (priority p h).1) group clip loaded lease),
          checked_pass (priorityTaken_eq_false priority), checked_nil]
      have same : Fin.ofNat 512 w.clip = c := by rw [clip]; exact Fin.ext (Nat.mod_eq_of_lt c.isLt)
      rw [written, same, storedGuard_eq, optIndex_eq_map fun p h => (priority p h).1]
      rfl
  · intro c w source gate target admitted guard
    have command : exec (.counterWrite x c.val w) s = .next (record (codeOnly (writeCounter x.cls c.val w s))) := rfl
    have guardOk : (!allowed x.cls (s.counter c).guard) = false := by rw [allowed_eq_true admitted]; rfl
    rw [command]
    refine ⟨fun running => ?_,
      fun stopped hSource hGate hTarget first reload most mode event alert => ?_⟩
    · have refused : writeCounter x.cls c.val w s = (s, .busy) := by
        rw [writeCounter, atIndex_val, checked_pass guardOk, checked_fail running]
      rw [refused]
      rfl
    · have spelledSource : sourceOfForm c w.source = some source := by rw [hSource, sourceOfForm_form first]
      have spelledGate : gateOfForm w.gate = some gate := by rw [hGate, gateOfForm_form]
      have spelledTarget : targetOfForm w.target = some target := by rw [hTarget, targetOfForm_form]
      have fieldsOk : counterFieldBad c w = false := by
        simp only [counterFieldBad, spelledSource, spelledGate, spelledTarget, Option.isNone_some, Bool.false_or,
          Bool.or_false, Bool.or_eq_false_iff, decide_eq_false_iff_not]
        omega
      have targetOk : targetGuarded s x.cls w = false := by
        unfold targetGuarded
        rw [spelledTarget]
        cases target with
        | event e => exact (congrArg (!·) (allowed_eq_true (event e rfl)))
        | _ => rfl
      have alertOk : alertTargetBad x.cls w = false := by
        unfold alertTargetBad
        rw [spelledTarget, storedGuard_eq]
        cases target with
        | alertOn a => exact decide_eq_false (not_not.2 (alert a (.inl rfl)))
        | alertRenew a => exact decide_eq_false (not_not.2 (alert a (.inr rfl)))
        | _ => rfl
      have written : writeCounter x.cls c.val w s = (s.modCounter c (fun y => { y with
          source := source, gate := gate, reload := w.reload, mode := if w.mode = 0 then .oneShot else .periodic
          target := target, guard := storedGuard x.cls w.guard }), .ok) := by
        rw [writeCounter, atIndex_val, checked_pass guardOk, checked_pass stopped, checked_pass fieldsOk,
          checked_pass targetOk, checked_pass alertOk, checked_nil, spelledSource, spelledGate, spelledTarget]
        rfl
      rw [written, storedGuard_eq]
      rfl

end Sys2Proof.Machine
end

section
/-!
PROOFS. The writes of CUELINE, CHANNEL, INLANE, OUTLANE and STORE (R6, R108, R124, R158, R172).
-/
namespace Sys2Proof.Machine
set_option Elab.async false

/-! ### CUELINE -/

theorem directionOf_code (d : Direction) : directionOf d.code = some d := by cases d <;> rfl

theorem edgeOf_code (e : EdgeSelect) : edgeOf e.code = some e := by cases e <;> rfl

theorem tallyOfForm_form (x : Tally) : tallyOfForm x.form = some x := by
  cases x <;> simp [tallyOfForm, Tally.form, index?_val]

/-- A CUELINE write whose fields are spelled right (R158). -/
theorem writeCueline_accepted {x : Ctx} {n : LineId} {w : CueLineImg} {d : Direction} {e : EdgeSelect} {f : Tally}
    {s : State} (guard : x.cls ≤ (s.line n).guard) (direction : w.direction = d.code) (edge : w.edge = e.code)
    (tally : w.tally = f.form) (debounce : w.debounce ≤ 255) :
    writeCueline x.cls n.val w s = (turnLine n (s.line n).direction d (s.modLine n (fun y => { y with
      direction := d, edge := e, debounce := w.debounce, tally := f
      guard := max x.cls (Fin.ofNat 4 (min w.guard 3)) })), .ok) := by
  rw [writeCueline, atIndex_val]
  simp only [allowed_eq_true guard, direction, edge, tally, directionOf_code, edgeOf_code, tallyOfForm_form,
    Nat.min_eq_left debounce, storedGuard_eq]

/-- A driven line has the new level, sampled and debounced; beside it the cue unit's counters and due steps may change
(R160, R161). -/
theorem drive_eq (n : LineId) (new : Level) (s : State) :
    ∃ c d, drive n new s = { s with
      lines := s.lines.put n { s.line n with sampled := new, debounced := new }, counters := c, due := d } := by
  obtain ⟨l, c, d, e⟩ := drive_cueOnly n new s
  refine ⟨c, d, ?_⟩
  have lines : l = s.lines.put n { s.line n with sampled := new, debounced := new } := by
    have same : (drive n new s).lines = l := by rw [e]
    rw [← same]
    refine Tbl.ext_get fun m => ?_
    rw [Tbl.get_put]
    exact drive_line n m new s
  rw [e, lines]

/-- A line written OUT drives its tally source at once (R158, R161). -/
theorem turnLine_output (n : LineId) (old : Direction) (s : State) :
    ∃ c d, turnLine n old .output s = { s with
      lines := s.lines.put n { s.line n with
        pending := 0, reinit := false
        sampled := tallyLevel s (s.line n).tally, debounced := tallyLevel s (s.line n).tally }
      counters := c, due := d } := by
  have e : turnLine n old .output s =
      drive n (tallyLevel s (s.line n).tally) (s.modLine n (fun x => { x with pending := 0, reinit := false })) := by
    cases old <;> rfl
  obtain ⟨c, d, driven⟩ := drive_eq n (tallyLevel s (s.line n).tally)
    (s.modLine n (fun x => { x with pending := 0, reinit := false }))
  refine ⟨c, d, ?_⟩
  rw [e, driven, State.modLine_self]
  simp [State.modLine]

/-! ### CHANNEL -/

theorem channelOutOfRange_eq_false {w : ChannelImg} (inLane : w.inLane ≤ 3) (inTag : w.inTag ≤ 4094)
    (respLane : w.respLane ≤ 1) (respTag : w.respTag ≤ 4094) (bound : w.bound ≤ 3) : channelOutOfRange w = false := by
  simp [channelOutOfRange]
  omega

/-- The channel record that an accepted write stores, with its queue written out (R172). -/
theorem channelOfImg_eq (w : ChannelImg) (old : Channel) :
    channelOfImg w old = { old with
      enabled := w.enabled, inLane := Fin.ofNat 4 w.inLane, inTag := BitVec.ofNat 12 w.inTag
      respLane := Fin.ofNat 2 w.respLane, respTag := BitVec.ofNat 12 w.respTag, bound := Fin.ofNat 4 w.bound
      queue := if old.respLane = Fin.ofNat 2 w.respLane ∧ old.respTag = BitVec.ofNat 12 w.respTag then old.queue
        else [] } := by
  unfold channelOfImg
  dsimp only
  rw [if_congr (and_congr eq_comm eq_comm) rfl rfl]
  split <;> rfl

theorem channelClash_eq_false {s : State} {h : ChannelId} {x : Channel}
    (apart : x.enabled = true →
      (∀ g, g ≠ h → (s.channel g).enabled = true →
        ¬((s.channel g).inLane = x.inLane ∧ (s.channel g).inTag = x.inTag) ∧
        ¬((s.channel g).respLane = x.respLane ∧ (s.channel g).respTag = x.respTag)) ∧
      (∀ r, (s.route r).state = .active → ¬((s.route r).outLane = x.respLane ∧ (s.route r).outTag = x.respTag))) :
    channelClash s h x = false := by
  rw [channelClash, Bool.and_eq_false_imp]
  intro enabled
  obtain ⟨channels, routes⟩ := apart enabled
  rw [Bool.or_eq_false_iff, Bool.not_eq_false', Bool.not_eq_false', Tbl.indices_isEmpty, Tbl.indices_isEmpty]
  refine ⟨fun g => ?_, fun r => decide_eq_false fun ⟨active, pair⟩ => routes r active pair⟩
  rw [Bool.and_eq_false_imp, Bool.and_eq_true, decide_eq_true_iff]
  rintro ⟨other, on⟩
  obtain ⟨listens, answers⟩ := channels g other on
  exact decide_eq_false fun pair => pair.elim listens answers

theorem writeChannel_guarded {x : Ctx} (cls : x.cls ≠ 0) (h : ChannelId) (w : ChannelImg) (s : State) :
    writeChannel x.cls h.val w s = (s, .guarded) := by
  rw [writeChannel, atIndex_val, checked_fail (decide_eq_true cls)]

theorem writeInlane_guarded {x : Ctx} (cls : x.cls ≠ 0) (n : InLaneId) (m : Nat) (s : State) :
    writeInlane x.cls n.val m s = (s, .guarded) := by
  rw [writeInlane, atIndex_val, checked_fail (decide_eq_true cls)]

theorem writeInlane_accepted {x : Ctx} (cls : x.cls = 0) (n : InLaneId) (m : Nat) (s : State) :
    writeInlane x.cls n.val m s = (s.modInLane n (fun y => { y with timeout := clamp 10 1000 m }), .ok) := by
  rw [writeInlane, atIndex_val, checked_pass (decide_eq_false (not_not.2 cls)), checked_nil]

theorem writeOutlane_guarded {x : Ctx} (cls : x.cls ≠ 0) (n : OutLaneId) (k : Nat) (s : State) :
    writeOutlane x.cls n.val k s = (s, .guarded) := by
  rw [writeOutlane, atIndex_val, checked_fail (decide_eq_true cls)]

theorem writeStore_guarded {x : Ctx} (cls : x.cls ≠ 0) (w : StoreImg) (s : State) :
    writeStore x.cls 0 w s = (s, .guarded) := by
  rw [writeStore, atIndex_lt Nat.one_pos, checked_fail (decide_eq_true cls)]

theorem writeStore_accepted {x : Ctx} (cls : x.cls = 0) (w : StoreImg) (s : State) :
    writeStore x.cls 0 w s = (portTest (s.modPort (fun p =>
      { p with fast := w.fast, tenureLimit := clamp 1 8 w.tenureLimit, gap := min w.gap 15
               dutyLimit := clamp 1 255 w.dutyLimit })), .ok) := by
  rw [writeStore, atIndex_lt Nat.one_pos, checked_pass (decide_eq_false (not_not.2 cls)), checked_nil]

/-- Settles O54: the five writes, one after the other, and the class that four of them need. -/
theorem settingsWritesStore : Obligations.SettingsWritesStore := by
  intro x s
  refine ⟨?_, fun cls => ⟨?_, fun n m => ?_, fun n k least most fits => ?_, fun w => ?_⟩,
    fun cls => ⟨fun h w => ?_, fun n m => ?_, fun n k => ?_, fun w => ?_⟩⟩
  · intro n w d e f guard direction edge tally debounce stored
    have written := writeCueline_accepted guard direction edge tally debounce
    have command : exec (.cuelineWrite x n.val w) s = .next (record (codeOnly (writeCueline x.cls n.val w s))) := rfl
    rw [command, written]
    refine ⟨?_, ?_, ?_⟩
    · rintro rfl old
      rw [old]
      rfl
    · rintro rfl old
      rw [old, turnLine, modLine_modLine]
      rfl
    · rintro rfl
      obtain ⟨c, due, e⟩ := turnLine_output n (s.line n).direction (s.modLine n (fun _ => stored))
      refine ⟨c, due, ?_⟩
      rw [State.modLine_self] at e
      have same : s.modLine n (fun _ => stored) = s.modLine n (fun y => { y with
        direction := .output, edge := _, debounce := w.debounce, tally := f
        guard := max x.cls (Fin.ofNat 4 (min w.guard 3)) }) := rfl
      rw [← same, e]
      simp only [State.modLine, Tbl.put_put]
      rfl
  · intro h w new inLane inTag respLane respTag bound hnew apart
    have stored : channelOfImg w (s.channel h) = new := (channelOfImg_eq w _).trans hnew.symm
    have clash : channelClash s h new = false := channelClash_eq_false fun enabled => apart (by rw [hnew] at enabled; exact enabled)
    have written : writeChannel x.cls h.val w s = (s.modChannel h (fun _ => new), .ok) := by
      rw [writeChannel, atIndex_val]
      dsimp only
      rw [stored, checked_pass (decide_eq_false (not_not.2 cls)),
        checked_pass (channelOutOfRange_eq_false inLane inTag respLane respTag bound), checked_pass clash, checked_nil]
    change Host.Outcome.next (record (codeOnly (writeChannel x.cls h.val w s))) = _
    rw [written]
    rfl
  · change Host.Outcome.next (record (codeOnly (writeInlane x.cls n.val m s))) = _
    rw [writeInlane_accepted cls]
    rfl
  · have written : writeOutlane x.cls n.val k s = (s.modOutLane n (fun y => { y with capacity := k }), .ok) := by
      rw [writeOutlane, atIndex_val, checked_pass (decide_eq_false (not_not.2 cls)),
        checked_pass (decide_eq_false (by omega)), checked_pass (decide_eq_false (by omega)), checked_nil]
    change Host.Outcome.next (record (codeOnly (writeOutlane x.cls n.val k s))) = _
    rw [written]
    rfl
  · change Host.Outcome.next (record (codeOnly (writeStore x.cls 0 w s))) = _
    rw [writeStore_accepted cls, portTest_phase]
    rfl
  · change Host.Outcome.next (record (codeOnly (writeChannel x.cls h.val w s))) = _
    rw [writeChannel_guarded cls]
    rfl
  · change Host.Outcome.next (record (codeOnly (writeInlane x.cls n.val m s))) = _
    rw [writeInlane_guarded cls]
    rfl
  · change Host.Outcome.next (record (codeOnly (writeOutlane x.cls n.val k s))) = _
    rw [writeOutlane_guarded cls]
    rfl
  · change Host.Outcome.next (record (codeOnly (writeStore x.cls 0 w s))) = _
    rw [writeStore_guarded cls]
    rfl

end Sys2Proof.Machine
end

section
/-!
PROOFS. The write of EVENT: the checks, and the place in the schedule list (R45 to R48).
-/
namespace Sys2Proof.Machine
set_option Elab.async false

/-- The indices that a written clip list spells. -/
theorem writtenClips_eq {w : EventImg} {l : List ClipId} (h : w.clips = l.map Fin.val) : writtenClips w = l := by
  rw [writtenClips, h, List.filterMap_map]
  exact (List.filterMap_congr fun c _ => index?_val c).trans List.filterMap_some

/-- The nominal duration is the one given, or the feed total of the clips (R47). -/
theorem nominalOf_eq {s : State} {v : SvcId} {w : EventImg} {l : List ClipId} {nominal : Nat}
    (clips : writtenClips w = l)
    (duration : (w.duration = some nominal ∧ 10000 ≤ nominal) ∨ (w.duration = none ∧
      nominal = (feedTotal (s.svc v).cfg.unitInt (s.svc v).cfg.unitFrac (l.map s.clip)).toNat)) :
    nominalOf s v w = nominal := by
  rcases duration with ⟨given, -⟩ | ⟨absent, total⟩
  · simp only [nominalOf, given]
  · simp only [nominalOf, absent, clips, total]

theorem eventFieldBad_eq_false {s : State} {v : SvcId} {w : EventImg} {l : List ClipId} {nominal : Nat}
    (state : w.state = 1) (service : w.service = v.val) (trigger : w.trigger ≤ 1)
    (splice : w.trigger = 0 → w.s.isSome) (spelled : w.clips = l.map Fin.val) (count : w.clipCount = l.length)
    (some_ : 1 ≤ l.length) (loaded : ∀ c ∈ l, (s.clip c).state = .loaded)
    (duration : (w.duration = some nominal ∧ 10000 ≤ nominal) ∨ w.duration = none) (most : nominal ≤ 2 ^ 34) :
    eventFieldBad s w = false := by
  have durationOk : (match w.duration with
      | none => false
      | some d => decide (d < 10000 ∨ 2 ^ 34 < d)) = false := by
    rcases duration with ⟨given, least⟩ | absent
    · rw [given]
      exact decide_eq_false (by omega)
    · rw [absent]
  have indices : (w.clips.any fun c => decide (511 < c)) = false := by
    rw [spelled, List.any_eq_false]
    intro c h
    obtain ⟨i, -, rfl⟩ := List.mem_map.1 h
    simp
    omega
  have states : ((writtenClips w).any fun c => decide ((s.clip c).state = .free)) = false := by
    rw [writtenClips_eq spelled, List.any_eq_false]
    intro c h
    rw [loaded c h]
    decide
  have spliceOk : (decide (w.trigger = 0) && w.s.isNone) = false := by
    rw [Bool.and_eq_false_imp, decide_eq_true_iff]
    intro h
    rw [Option.isNone_eq_false_iff]
    exact splice h
  have range := v.isLt
  unfold eventFieldBad
  simp only [Bool.or_eq_false_iff, decide_eq_false_iff_not]
  refine ⟨⟨⟨⟨⟨⟨⟨?_, ?_⟩, ?_⟩, spliceOk⟩, durationOk⟩, ?_⟩, indices⟩, states⟩ <;> omega

/-- The checks of an EVENT write that do not look at the timebase pass (R45). -/
theorem writeEvent_checked {x : Ctx} {e : EventId} {v : SvcId} {l : List ClipId} {nominal : Nat} {w : EventImg}
    {s : State} (free : (s.event e).state = .free) (service : w.service = v.val) (on : (s.svc v).state ≠ .off)
    (fields : eventFieldBad s w = false) (spelled : w.clips = l.map Fin.val) (count : w.clipCount = l.length)
    (most : l.length ≤ 8)
    (duration : (w.duration = some nominal ∧ 10000 ≤ nominal) ∨ (w.duration = none ∧
      nominal = (feedTotal (s.svc v).cfg.unitInt (s.svc v).cfg.unitFrac (l.map s.clip)).toNat))
    (short : nominal ≤ 2 ^ 34) :
    writeEvent x.cls e.val w s =
      checked (if w.trigger = 0 then timeChecks s v (w.s.getD 0) nominal else []) s
        (storeEvent e (eventOfImg w x.cls nominal) s) := by
  have same : Fin.ofNat 64 w.service = v := by rw [service]; exact Fin.ext (Nat.mod_eq_of_lt v.isLt)
  have hNominal := nominalOf_eq (writtenClips_eq spelled) duration
  have lengthOk : eventTooLong s v w = false := by
    rw [eventTooLong, hNominal, decide_eq_false (by omega), decide_eq_false (Nat.not_lt.2 short), Bool.and_false]
    rfl
  rw [writeEvent, atIndex_val]
  dsimp only
  rw [same, hNominal, List.cons_append, checked_pass (guard_passes (.inl (not_not.2 free))), List.cons_append,
    checked_pass (decide_eq_false (not_not.2 free)), List.cons_append, checked_pass fields, List.cons_append,
    checked_pass lengthOk, List.cons_append, checked_pass (decide_eq_false on), List.nil_append]

/-- The record that an accepted write stores (R45). -/
theorem eventOfImg_eq {x : Ctx} {v : SvcId} {l : List ClipId} {w : EventImg} (nominal : Nat)
    (service : w.service = v.val) (spelled : w.clips = l.map Fin.val) :
    eventOfImg w x.cls nominal =
      { state := .scheduled, service := v, trigger := if w.trigger = 0 then .time else .cue
        s := if w.trigger = 0 then w.s else none, duration := w.duration, clips := l, force := w.force
        rehearse := w.rehearse, guard := max x.cls (Fin.ofNat 4 (min w.guard 3)), nominal := nominal
        outcome := none, flags := {}, slot := none, px := none, tr := none, retPs := none, seam := none
        inserted := 0, shed := 0 } := by
  have same : Fin.ofNat 64 w.service = v := by rw [service]; exact Fin.ext (Nat.mod_eq_of_lt v.isLt)
  rw [eventOfImg, same, writtenClips_eq spelled, storedGuard_eq]
  rfl

/-- An event is put behind the entries of no greater offset, and before the first of a greater one (R48). -/
theorem insertSpan_split (s : State) (last splice : Stamp) (e : EventId) (l : List EventId) :
    ∃ before after, l = before ++ after ∧ insertSpan s last splice e l = before ++ e :: after ∧
      (∀ y ∈ before, ∀ other, (s.event y).s = some other → offsetFrom last other ≤ offsetFrom last splice) ∧
      (∀ y other, after.head? = some y → (s.event y).s = some other →
        offsetFrom last splice < offsetFrom last other) := by
  induction l with
  | nil => exact ⟨[], [], rfl, rfl, List.forall_mem_nil _, fun _ _ h => by cases h⟩
  | cons x rest ih =>
    obtain ⟨before, after, split, inserted, low, high⟩ := ih
    have passes (h : insertSpan s last splice e (x :: rest) = x :: insertSpan s last splice e rest)
        (le : ∀ other, (s.event x).s = some other → offsetFrom last other ≤ offsetFrom last splice) :
        ∃ before after, x :: rest = before ++ after ∧ insertSpan s last splice e (x :: rest) = before ++ e :: after ∧
          (∀ y ∈ before, ∀ other, (s.event y).s = some other → offsetFrom last other ≤ offsetFrom last splice) ∧
          (∀ y other, after.head? = some y → (s.event y).s = some other →
            offsetFrom last splice < offsetFrom last other) := by
      refine ⟨x :: before, after, by rw [split]; rfl, by rw [h, inserted]; rfl, ?_, high⟩
      exact List.forall_mem_cons.2 ⟨le, low⟩
    cases hx : (s.event x).s with
    | none => exact passes (by simp only [insertSpan, hx]) fun other h => by rw [hx] at h; cases h
    | some y =>
      by_cases lt : offsetFrom last splice < offsetFrom last y
      · refine ⟨[], x :: rest, rfl, by simp only [insertSpan, hx, if_pos lt]; rfl, List.forall_mem_nil _, ?_⟩
        intro z other head hz
        cases head
        rw [hx] at hz
        cases hz
        exact lt
      · refine passes (by simp only [insertSpan, hx, if_neg lt]) fun other h => ?_
        rw [hx] at h
        cases h
        exact not_lt.1 lt

/-- The span of a new event meets no span of the list (R48). -/
theorem spanConflict_eq_false {s : State} {v : SvcId} {last splice : Stamp} {nominal : Nat}
    (apart : ∀ y ∈ s.list v, ∀ other, (s.event y).s = some other →
      offsetFrom last splice + spanLength (s.svc v).cfg nominal ≤ offsetFrom last other ∨
      offsetFrom last other + spanLength (s.svc v).cfg (s.event y).nominal ≤ offsetFrom last splice) :
    spanConflict s v last splice nominal = false := by
  rw [spanConflict, List.any_eq_false]
  intro y listed
  cases hy : (s.event y).s with
  | none => exact Bool.false_ne_true
  | some other =>
    have clear := apart y listed other hy
    rw [Bool.not_eq_true]
    exact decide_eq_false (by omega)

/-- Settles O51: a CUE event has no check of the timebase; a TIME event passes them, and is put in its place. -/
theorem eventWriteLoads : Obligations.EventWriteLoads := by
  intro x e v l nominal w s free state service on spelled count some_ most loaded duration short stored
  have fields (trigger : w.trigger ≤ 1) (splice : w.trigger = 0 → w.s.isSome) : eventFieldBad s w = false :=
    eventFieldBad_eq_false state service trigger splice spelled count some_ loaded (duration.imp_right And.left) short
  have accepted (trigger : w.trigger ≤ 1) (splice : w.trigger = 0 → w.s.isSome) :=
    writeEvent_checked (x := x) free service on (fields trigger splice) spelled count most duration short
  have command : exec (.eventWrite x e.val w) s = .next (record (codeOnly (writeEvent x.cls e.val w s))) := rfl
  have record_eq := eventOfImg_eq (x := x) nominal service spelled
  rw [command]
  refine ⟨fun cue => ?_, ?_⟩
  · have notTime : w.trigger ≠ 0 := by omega
    rw [accepted (by omega) (fun h => absurd h notTime), if_neg notTime, checked_nil, record_eq, if_neg notTime,
      if_neg notTime]
    rfl
  · intro splice last time given base notEqual later near ends apart
    obtain ⟨before, after, split, inserted, low, high⟩ := insertSpan_split s last splice e (s.list v)
    refine ⟨before, after, split, low, high, ?_⟩
    have afterOk : (!Machine.after splice (last + ticks (s.svc v).cfg.preroll)) = false := by
      rw [Machine.after, atOrAfter, ticks, decide_eq_true later, decide_eq_true notEqual]
      rfl
    have conflictOk : spanConflict s v last splice nominal = false := spanConflict_eq_false apart
    have checks : timeChecks s v splice nominal =
        [(!Machine.after splice (last + ticks (s.svc v).cfg.preroll), .tooLate),
         (decide (2 ^ 34 < (splice - last).toNat), .tooFar), (spanConflict s v last splice nominal, .conflict)] := by
      simp only [timeChecks, base]
    rw [accepted (by omega) (fun _ => by rw [given]; rfl), if_pos time, given, Option.getD_some, checks,
      checked_pass afterOk, checked_pass (decide_eq_false (Nat.not_lt.2 near)), checked_pass conflictOk, checked_nil,
      record_eq, if_pos time, if_pos time, given, storeEvent]
    simp only [base, inserted]
    rfl

end Sys2Proof.Machine
end

section
/-!
PROOFS. Small commands: the held clock model, the counters' start and stop, the lease, CLEAR, and the cursor verbs (R81,
R142, R149, R164, R182, R184).
-/
namespace Sys2Proof.Machine
set_option Elab.async false

theorem takeDue_of_mem {d : Due} {s : State} (h : d ∈ s.due) :
    takeDue d s = runDue d { s with due := s.due.erase d } := by
  rcases takeDue_cases d s with ⟨_, e⟩ | ⟨no, _⟩
  · exact e
  · exact absurd h no

/-- Settles O24: the check passes, and a held model's span is the limit. -/
theorem clockModelIsHeld : Obligations.ClockModelIsHeld := by
  intro v m s due clock free span
  have passes : holdPassed { s with due := s.due.erase (.hold v) } v = true := by
    have clock' : (({ s with due := s.due.erase (.hold v) } : State).svc v).clock = some m := clock
    have free' : (({ s with due := s.due.erase (.hold v) } : State).svc v).held = false := free
    simp only [holdPassed, clock', free', Bool.not_false, Bool.true_and, Config.holdSpan]
    exact decide_eq_true span
  have held : takeDue (.hold v) s =
      { s with due := s.due.erase (.hold v), services := s.services.put v { s.svc v with held := true } } := by
    rw [takeDue_of_mem due]
    exact if_pos passes
  refine ⟨_, rfl, held, fun now => ?_⟩
  have entry : (takeDue (.hold v) s).svc v = { s.svc v with held := true } := by
    rw [held]
    exact Tbl.get_put_self _ _ _
  rw [entry]
  have limit : ticks (Config.holdSpan * 10000) = 10485760000 := by decide
  simp only [projection, freeRun, clock, Option.map_some, if_true, limit]

/-! ### Counters -/

theorem not_clocks (c : CounterId) (d : Due) : (!d.clocks c) = decide (d ≠ .clock c ∧ d ≠ .pulse c) := by
  cases d <;> simp [Due.clocks]

theorem dropClocks_eq (s : State) (c : CounterId) :
    s.dropClocks c = { s with due := s.due.filter (fun d => decide (d ≠ Due.clock c ∧ d ≠ Due.pulse c)) } := by
  rw [State.dropClocks, funext (not_clocks c)]

/-- Settles O29. -/
theorem countersStartAndStop : Obligations.CountersStartAndStop := by
  intro x c i s
  have start : ∀ j, exec (.counterStart x j) s = .next (record (doCounterStart x j s)) := fun _ => rfl
  have stop : ∀ j, exec (.counterStop x j) s = .next (record (doCounterStop x j s)) := fun _ => rfl
  simp only [start, stop]
  refine ⟨fun admitted => ⟨?_, ?_⟩, fun guarded => ⟨?_, ?_⟩, fun beyond => ⟨?_, ?_⟩⟩
  · rw [doCounterStart, entryAt_val, allowed_eq_true admitted]
    rfl
  · rw [doCounterStop, entryAt_val, allowed_eq_true admitted]
    rw [Bool.not_true, refuseIf_false, record_mk, stopCounter, dropClocks_eq]
    rfl
  · rw [doCounterStart, entryAt_val, allowed_eq_false guarded]
    rfl
  · rw [doCounterStop, entryAt_val, allowed_eq_false guarded]
    rfl
  · rw [doCounterStart, entryAt_ge beyond]
    rfl
  · rw [doCounterStop, entryAt_ge beyond]
    rfl

/-! ### The lease -/

/-- Settles O44. -/
theorem renewalMovesTheDeadline : Obligations.RenewalMovesTheDeadline := by
  intro x a i s renewed
  have renew : ∀ j, exec (.alertRenew x j) s = .next (record (doAlertRenew x j s)) := fun _ => rfl
  have on : ∀ j, exec (.alertOn x j) s = .next (record (doAlertOn x j s)) := fun _ => rfl
  simp only [renew, on]
  refine ⟨fun cls live => ⟨?_, ?_⟩, fun cls idle => ⟨?_, fun masked => ?_, fun open_ bare => ?_⟩,
    fun cls => ⟨?_, ?_⟩, fun beyond => ⟨?_, ?_⟩⟩
  · rw [doAlertRenew, entryAt_val, decide_eq_false (not_not.2 cls), refuseIf_false, (live_iff s a).2 live]
    rfl
  · rw [doAlertOn, entryAt_val, decide_eq_false (not_not.2 cls), refuseIf_false, if_pos ((live_iff s a).2 live)]
    rfl
  · rw [doAlertRenew, entryAt_val, decide_eq_false (not_not.2 cls), refuseIf_false, live_eq_false.2 idle]
    rfl
  · rw [doAlertOn, entryAt_val, decide_eq_false (not_not.2 cls), refuseIf_false, live_eq_false.2 idle, masked]
    rfl
  · rw [doAlertOn, entryAt_val, decide_eq_false (not_not.2 cls), refuseIf_false, live_eq_false.2 idle, open_, bare]
    rfl
  · rw [doAlertRenew, entryAt_val, decide_eq_true cls]
    rfl
  · rw [doAlertOn, entryAt_val, decide_eq_true cls]
    rfl
  · rw [doAlertRenew, entryAt_ge beyond]
    rfl
  · rw [doAlertOn, entryAt_ge beyond]
    rfl

/-! ### CLEAR -/

@[simp] theorem ofCode_code (t : Table) : Table.ofCode t.code = some t := by cases t <;> rfl

theorem ofCode_none {n : Nat} (h : 15 ≤ n) : Table.ofCode n = none := List.getElem?_eq_none h

theorem field_byte (m : Byte) : field [m] 0 1 = m.toNat := field_one (Nat.one_pos)

theorem modAt_val {n : Nat} (i : Fin n) (s : State) (f : Fin n → State) : modAt n i.val s f = f i := by
  simp only [modAt, index?_val]

theorem doClear_beyond {x : Ctx} {t : Table} {i : Nat} {s : State} (h : t.entries s ≤ i) (bs : List Byte) :
    doClear x t.code i bs s = (s, Code.badIndex.only) := by
  simp only [doClear, ofCode_code, decide_eq_true h, refuseIf_true]

theorem doClear_area {x : Ctx} {t : Table} {i : Nat} {s : State} {bs : List Byte} (h : i < t.entries s)
    (bad : bs.length ≠ 1 ∨ t.items = 0) : doClear x t.code i bs s = (s, Code.badField.only) := by
  simp only [doClear, ofCode_code, decide_eq_false (Nat.not_le.2 h), decide_eq_true bad, refuseIf_false, refuseIf_true]

theorem doClear_guarded {x : Ctx} {t : Table} {i : Nat} {s : State} (h : i < t.entries s) (items : t.items ≠ 0)
    (guard : guardOf s t i < x.cls) (m : Byte) : doClear x t.code i [m] s = (s, Code.guarded.only) := by
  have area : ¬(([m] : List Byte).length ≠ 1 ∨ t.items = 0) := fun h => h.elim (absurd rfl) items
  simp only [doClear, ofCode_code, decide_eq_false (Nat.not_le.2 h), decide_eq_false area, allowed_eq_false guard,
    refuseIf_false, refuseIf_true, Bool.not_false]

theorem doClear_mask {x : Ctx} {t : Table} {i : Nat} {s : State} {m : Byte} (h : i < t.entries s) (items : t.items ≠ 0)
    (guard : x.cls ≤ guardOf s t i) (mask : m = 0 ∨ 2 ^ t.items ≤ m.toNat) :
    doClear x t.code i [m] s = (s, Code.badField.only) := by
  have area : ¬(([m] : List Byte).length ≠ 1 ∨ t.items = 0) := fun h => h.elim (absurd rfl) items
  have mask' : m.toNat = 0 ∨ 2 ^ t.items ≤ m.toNat := mask.imp_left fun h => by rw [h]; rfl
  simp only [doClear, ofCode_code, decide_eq_false (Nat.not_le.2 h), decide_eq_false area, allowed_eq_true guard,
    refuseIf_false, refuseIf_true, Bool.not_true, field_byte, decide_eq_true mask']

theorem doClear_accepted {x : Ctx} {t : Table} {i : Nat} {s : State} {m : Byte} (h : i < t.entries s)
    (items : t.items ≠ 0) (guard : x.cls ≤ guardOf s t i) (some_ : m ≠ 0) (mask : m.toNat < 2 ^ t.items) :
    doClear x t.code i [m] s = (clearItems t i m.toNat s, Code.ok.only) := by
  have area : ¬(([m] : List Byte).length ≠ 1 ∨ t.items = 0) := fun h => h.elim (absurd rfl) items
  have mask' : ¬(m.toNat = 0 ∨ 2 ^ t.items ≤ m.toNat) := fun h =>
    h.elim (fun z => some_ (BitVec.eq_of_toNat_eq z)) (Nat.not_le.2 mask)
  simp only [doClear, ofCode_code, decide_eq_false (Nat.not_le.2 h), decide_eq_false area, allowed_eq_true guard,
    refuseIf_false, Bool.not_true, field_byte, decide_eq_false mask']

theorem clearBit_flag (m : Byte) (bit : Nat) (b : Bool) : clearBit m.toNat bit false b = (b && !m.getLsbD bit) := by
  rw [clearBit, BitVec.testBit_toNat]
  cases m.getLsbD bit <;> simp

theorem clearBit_count (m : Byte) (bit n : Nat) : clearBit m.toNat bit 0 n = if m.getLsbD bit then 0 else n := by
  rw [clearBit, BitVec.testBit_toNat]

/-- A mask of one item names it when it is 1. -/
theorem clearBit_one {α : Type} (zero x : α) : clearBit (1 : Byte).toNat 0 zero x = zero := rfl

theorem mask_bad {m : Byte} (h : m ≠ 1) : m = 0 ∨ 2 ^ 1 ≤ m.toNat := by
  by_cases z : m = 0
  · exact .inl z
  · refine .inr ?_
    have h0 : m.toNat ≠ 0 := fun e => z (BitVec.eq_of_toNat_eq e)
    have h1 : m.toNat ≠ 1 := fun e => h (BitVec.eq_of_toNat_eq e)
    omega

/-- Settles O58: each clause is one of the five answers of CLEAR. -/
theorem clearTouchesTheNamedItems : Obligations.ClearTouchesTheNamedItems := by
  intro x m s off zero refused
  have command : ∀ table i bs, exec (.clear x table i bs) s = .next (record (doClear x table i bs s)) :=
    fun _ _ _ => rfl
  have refuses (table i : Nat) (c : Code) (h : doClear x table i [m] s = (s, c.only)) : refused table i c := by
    show exec _ _ = _
    rw [command, h]
    rfl
  have one : m = 1 → m ≠ 0 ∧ m.toNat < 2 ^ 1 := by
    rintro rfl
    decide
  refine ⟨fun v => ?_, fun a => ?_, fun r => ?_, fun n o h => ?_, fun t i inside => ?_, fun t i beyond => ?_,
    fun code i unknown => ?_⟩
  · have guard : guardOf s .service v.val = (s.svc v).cfg.guard := by simp only [guardOf, index?_val, Option.elim_some]
    refine ⟨fun g => refuses _ _ _ (doClear_guarded (t := .service) v.isLt (by decide) (by rw [guard]; exact g) m),
      fun g => ⟨fun bad => refuses _ _ _ (doClear_mask (t := .service) v.isLt (by decide) (by rw [guard]; exact g) bad),
        fun some_ mask => ?_⟩⟩
    rw [command, show (1 : Nat) = Table.code .service from rfl,
      doClear_accepted (t := .service) v.isLt (by decide) (by rw [guard]; exact g) some_ mask, clearItems, modAt_val]
    simp only [State.modSvc, Service.cleared, clearBit_flag, clearBit_count]
    rfl
  · have guard : guardOf s .alert a.val = (s.alert a).guard := by simp only [guardOf, index?_val, Option.elim_some]
    refine ⟨fun g => refuses _ _ _ (doClear_guarded (t := .alert) a.isLt (by decide) (by rw [guard]; exact g) m),
      fun g => ⟨fun bad => refuses _ _ _ (doClear_mask (t := .alert) a.isLt (by decide) (by rw [guard]; exact g) bad),
        fun some_ mask => ?_⟩⟩
    rw [command, show (6 : Nat) = Table.code .alert from rfl,
      doClear_accepted (t := .alert) a.isLt (by decide) (by rw [guard]; exact g) some_ mask, clearItems, modAt_val]
    simp only [State.modAlert, Alert.cleared, clearBit_flag]
    rfl
  · have guard : guardOf s .route r.val = (s.route r).guard := by simp only [guardOf, index?_val, Option.elim_some]
    refine ⟨fun g => refuses _ _ _ (doClear_guarded (t := .route) r.isLt (by decide) (by rw [guard]; exact g) m),
      fun g => ⟨fun bad => refuses _ _ _
        (doClear_mask (t := .route) r.isLt (by decide) (by rw [guard]; exact g) (mask_bad bad)), fun h => ?_⟩⟩
    rw [command, show (0 : Nat) = Table.code .route from rfl,
      doClear_accepted (t := .route) r.isLt (by decide) (by rw [guard]; exact g) (one h).1 (one h).2, clearItems,
      modAt_val, h]
    rfl
  · have class0 (g : x.cls ≠ 0) : (0 : Fin 4) < x.cls := Fin.pos_iff_ne_zero.2 g
    refine ⟨fun g => ⟨?_, ?_, ?_, ?_⟩, fun g bad => ⟨?_, ?_, ?_, ?_⟩, fun g h1 => ⟨?_, ?_, ?_, ?_⟩⟩
    · exact refuses _ _ _ (doClear_guarded (t := .inlane) n.isLt (by decide) (class0 g) m)
    · exact refuses _ _ _ (doClear_guarded (t := .outlane) o.isLt (by decide) (class0 g) m)
    · exact refuses _ _ _ (doClear_guarded (t := .channel) h.isLt (by decide) (class0 g) m)
    · exact refuses _ _ _ (doClear_guarded (t := .part) Nat.one_pos (by decide) (class0 g) m)
    · exact refuses _ _ _ (doClear_mask (t := .inlane) n.isLt (by decide) g.le (mask_bad bad))
    · exact refuses _ _ _ (doClear_mask (t := .outlane) o.isLt (by decide) g.le (mask_bad bad))
    · exact refuses _ _ _ (doClear_mask (t := .channel) h.isLt (by decide) g.le (mask_bad bad))
    · exact refuses _ _ _ (doClear_mask (t := .part) Nat.one_pos (by decide) g.le (mask_bad bad))
    · rw [command, show (10 : Nat) = Table.code .inlane from rfl,
        doClear_accepted (t := .inlane) n.isLt (by decide) g.le (one h1).1 (one h1).2, clearItems, modAt_val, h1]
      rfl
    · rw [command, show (11 : Nat) = Table.code .outlane from rfl,
        doClear_accepted (t := .outlane) o.isLt (by decide) g.le (one h1).1 (one h1).2, clearItems, modAt_val, h1]
      rfl
    · rw [command, show (9 : Nat) = Table.code .channel from rfl,
        doClear_accepted (t := .channel) h.isLt (by decide) g.le (one h1).1 (one h1).2, clearItems, modAt_val, h1]
      rfl
    · rw [command, show (14 : Nat) = Table.code .part from rfl,
        doClear_accepted (t := .part) Nat.one_pos (by decide) g.le (one h1).1 (one h1).2, clearItems, h1]
      rfl
  · refine ⟨fun bare => refuses _ _ _ (doClear_area inside (.inr ?_)), fun bs size => ?_⟩
    · rcases bare with rfl | rfl | rfl | rfl | rfl | rfl | rfl | rfl <;> rfl
    · rw [command, doClear_area inside (.inl size)]
      rfl
  · exact refuses _ _ _ (doClear_beyond beyond [m])
  · refine refuses _ _ _ ?_
    simp only [doClear, ofCode_none unknown]

end Sys2Proof.Machine
end

section
/-!
PROOFS. READ, POINT, PUT and GET (R180, R182): the entries and their images.
-/
namespace Sys2Proof.Machine
set_option Elab.async false

/-! ### The cursor -/

theorem entryThatFits_of_room {s : State} {t : Table} (notSlot : t ≠ .slot) {room : Nat} (i first : Nat)
    (h : t.imageBytes ≤ room) : entryThatFits s t i first room = some (imageOf s t i 0) := by
  rw [entryThatFits, if_neg notSlot, if_pos h]

theorem entryThatFits_none {s : State} {t : Table} (notSlot : t ≠ .slot) {room : Nat} (i first : Nat)
    (h : room < t.imageBytes) : entryThatFits s t i first room = none := by
  rw [entryThatFits, if_neg notSlot, if_neg (Nat.not_le.2 h)]

theorem doWrite_inside {x : Ctx} {t : Table} {i : Nat} {bs : List Byte} {s : State} (writable : t.writable = true)
    (inside : i < t.entries s) (size : bs.length = t.imageBytes) :
    doWrite x t.code i bs s = codeOnly (writeImage x.cls t i bs s) := by
  simp only [doWrite, ofCode_code, writable, decide_eq_false (Nat.not_le.2 inside), decide_eq_false (not_not.2 size),
    Bool.not_true, refuseIf_false]

/-- Settles O49: each verb by the cursor that it finds. -/
theorem cursorVerbsUseTheCursor : Obligations.CursorVerbsUseTheCursor := by
  intro x t i s at_
  have point : ∀ k, exec (.point x k i) s = .next (record (doPoint x k i s)) := fun _ => rfl
  have put : ∀ bs, exec (.put x bs) s = .next (record (doPut x bs s)) := fun _ => rfl
  have get : ∀ bs, exec (.get x bs) s = .next (record (doGet x bs s)) := fun _ => rfl
  simp only [point, put, get]
  refine ⟨fun inside => ?_, fun beyond => ?_, fun absent => ⟨fun bs => ?_, fun bs => ?_⟩, fun cursor => ⟨?_, ?_, ?_, ?_, ?_, ?_⟩⟩
  · simp only [doPoint, ofCode_code, decide_eq_false (Nat.not_le.2 inside), refuseIf_false]
    rfl
  · simp only [doPoint, ofCode_code, decide_eq_true beyond, refuseIf_true]
    rfl
  · simp only [doPut, absent]
    rfl
  · simp only [doGet, absent]
    rfl
  · intro notSlot inside room
    simp only [doGet, cursor, decide_eq_false (Nat.not_le.2 inside), if_neg notSlot, List.length_nil, ne_eq,
      not_true_eq_false, decide_false, refuseIf_false, entryThatFits_of_room notSlot _ _ room]
    rfl
  · intro notSlot inside room
    simp only [doGet, cursor, decide_eq_false (Nat.not_le.2 inside), if_neg notSlot, List.length_nil, ne_eq,
      not_true_eq_false, decide_false, refuseIf_false, entryThatFits_none notSlot _ _ room]
    rfl
  · intro beyond bs
    simp only [doGet, cursor, decide_eq_true beyond, refuseIf_true]
    rfl
  · intro writable beyond bs
    simp only [doPut, cursor, writable, Bool.not_true, refuseIf_false, decide_eq_true beyond, refuseIf_true]
    rfl
  · intro writable inside bs size
    simp only [doPut, cursor, writable, Bool.not_true, refuseIf_false, decide_eq_false (Nat.not_le.2 inside),
      if_pos size]
    rfl
  · intro writable inside bs size
    refine ⟨_, rfl, ?_⟩
    rw [doWrite_inside writable inside size]
    simp only [doPut, cursor, writable, Bool.not_true, refuseIf_false, decide_eq_false (Nat.not_le.2 inside),
      if_neg (not_not.2 size)]
    rfl

/-! ### Images and their lengths -/

theorem padTo_length (n : Nat) (bs : List Byte) : (padTo n bs).length = max n bs.length := by
  simp only [padTo, List.length_append, List.length_replicate]
  omega

theorem withIndex_length {n i : Nat} {f : Fin n → List Byte} {m : Nat} (h : ∀ k, (f k).length ≤ m) :
    (withIndex n i f).length ≤ m := by
  unfold withIndex
  split
  · exact h _
  · exact Nat.zero_le m

theorem clipListBytes_length {l : List ClipId} (h : l.length ≤ 8) : (clipListBytes l).length = 17 := by
  have two : (l.flatMap (fun c => beBytes 2 c.val)).length = 2 * l.length := by
    rw [List.length_flatMap, Nat.mul_comm, ← List.sum_replicate_nat, ← List.map_const']
    simp
  rw [clipListBytes, List.length_append, beBytes_length, padTo_length, two]
  omega

theorem routeImage_length (x : Route) : (routeImage x).length ≤ 16 := by simp [routeImage, maskBytes, optBytes]

theorem clipImage_length (x : Clip) : (clipImage x).length ≤ 24 := by simp [clipImage, signedBytes]

theorem windowImage_length (x : Window) : (windowImage x).length ≤ 12 := by simp [windowImage, flagBytes]

theorem alertImage_length (x : Alert) : (alertImage x).length ≤ 24 := by simp [alertImage, maskBytes, optBytes, flagBytes]

theorem counterImage_length (x : Counter) : (counterImage x).length ≤ 16 := by simp [counterImage, formBytes, flagBytes]

theorem cuelineImage_length (x : CueLine) : (cuelineImage x).length ≤ 8 := by simp [cuelineImage, formBytes]

theorem channelImage_length (x : Channel) : (channelImage x).length ≤ 20 := by simp [channelImage, maskBytes, optBytes, flagBytes]

theorem inlaneImage_length (x : InLane) : (inlaneImage x).length ≤ 8 := by simp [inlaneImage]

theorem storeImage_length (x : Port) : (storeImage x).length ≤ 8 := by simp [storeImage, flagBytes]

theorem serviceImage_length (s : State) (v : SvcId) : (serviceImage s v).length ≤ 80 := by
  unfold serviceImage
  dsimp only
  generalize s.svc v = x
  simp only [maskBytes, optBytes, optStamp, signedBytes, List.length_append, beBytes_length]
  norm_num

theorem eventImage_length {x : Event} (clips : x.clips.length ≤ 8) : (eventImage x).length ≤ 80 := by
  simp [eventImage, maskBytes, optBytes, optStamp, signedBytes, clipListBytes_length clips]

theorem outlaneImage_length (s : State) (n : OutLaneId) : (outlaneImage s n).length ≤ 12 := by simp [outlaneImage]

theorem logImage_length (x : LogEntry) : (logImage x).length ≤ 48 := by
  rw [logImage, padTo_length]
  simp [maskBytes, optStamp, signedBytes]

theorem partImage_length (s : State) : (partImage s).length ≤ 24 := by simp [partImage, maskBytes, flagBytes]

/-- An entry image fills its table's bytes exactly, but for SLOT, whose readers are beside it (section 10.4). -/
theorem imageOf_length {s : State} {t : Table} (clips : ∀ e, (s.event e).clips.length ≤ 8) (notSlot : t ≠ .slot)
    (i first : Nat) : (imageOf s t i first).length = t.imageBytes := by
  unfold imageOf
  rw [padTo_length, Nat.max_eq_left]
  cases t with
  | slot => exact absurd rfl notSlot
  | event => exact withIndex_length fun k => eventImage_length (clips k)
  | service => exact withIndex_length (serviceImage_length s)
  | outlane => exact withIndex_length (outlaneImage_length s)
  | store => exact storeImage_length _
  | part => exact partImage_length s
  | log =>
    show ((s.log[i]?.map logImage).getD []).length ≤ 48
    cases s.log[i]? with
    | none => exact Nat.zero_le _
    | some y => exact logImage_length y
  | route => exact withIndex_length fun k => routeImage_length _
  | clip => exact withIndex_length fun k => clipImage_length _
  | window => exact withIndex_length fun k => windowImage_length _
  | alert => exact withIndex_length fun k => alertImage_length _
  | counter => exact withIndex_length fun k => counterImage_length _
  | cueline => exact withIndex_length fun k => cuelineImage_length _
  | channel => exact withIndex_length fun k => channelImage_length _
  | inlane => exact withIndex_length fun k => inlaneImage_length _

theorem imageBytes_pos (t : Table) : 0 < t.imageBytes := by cases t <;> decide

/-- The entries from an index on: as many as were asked for, exist and fit (R180). -/
theorem readEntries_eq {s : State} {t : Table} (clips : ∀ e, (s.event e).clips.length ≤ 8) (notSlot : t ≠ .slot)
    (first n : Nat) : ∀ i room : Nat, readEntries s t first n i room =
      (min (min n (t.entries s - i)) (room / t.imageBytes),
        (List.range (min (min n (t.entries s - i)) (room / t.imageBytes))).flatMap (fun j => imageOf s t (i + j) 0)) := by
  have pos := imageBytes_pos t
  induction n with
  | zero => intro i room; simp [readEntries]
  | succ n ih =>
    intro i room
    by_cases beyond : t.entries s ≤ i
    · rw [readEntries, if_pos beyond, Nat.sub_eq_zero_of_le beyond]
      simp
    · by_cases room' : t.imageBytes ≤ room
      · have more : room / t.imageBytes = (room - t.imageBytes) / t.imageBytes + 1 := Nat.div_eq_sub_div pos room'
        have step : min (min (n + 1) (t.entries s - i)) (room / t.imageBytes) =
            min (min n (t.entries s - (i + 1))) ((room - t.imageBytes) / t.imageBytes) + 1 := by omega
        rw [readEntries, if_neg beyond, entryThatFits_of_room notSlot _ _ room']
        simp only [imageOf_length clips notSlot, ih, step]
        rw [List.range_succ_eq_map, List.flatMap_cons, List.flatMap_map, Nat.add_zero]
        congr 3
        funext j
        rw [Nat.add_assoc, Nat.add_comm 1 j]
      · rw [readEntries, if_neg beyond, entryThatFits_none notSlot _ _ (Nat.not_le.1 room'),
          Nat.div_eq_of_lt (Nat.not_le.1 room')]
        simp

theorem readRange_eq {s : State} {t : Table} (clips : ∀ e, (s.event e).clips.length ≤ 8) (notSlot : t ≠ .slot)
    (i n first room : Nat) :
    readRange s t i n first room =
      if min (min n (t.entries s - i)) (room / t.imageBytes) = 0 then ⟨.full, 0, []⟩
      else ⟨if t.entries s < i + n then .badIndex else .ok, min (min n (t.entries s - i)) (room / t.imageBytes),
        (List.range (min (min n (t.entries s - i)) (room / t.imageBytes))).flatMap
          (fun j => imageOf s t (i + j) 0)⟩ := by
  simp only [readRange, if_neg notSlot, readEntries_eq clips notSlot]
  generalize min (min n (t.entries s - i)) (room / t.imageBytes) = m
  cases m with
  | zero => rfl
  | succ m => rfl

/-- READ of SLOT returns one entry; here its readers end before the first one asked for (R180). -/
theorem readRange_slot {s : State} {k : SlotId} {n first room : Nat} (some_ : n ≠ 0)
    (readers : (s.slot k).readers.length ≤ first) (fits : 68 ≤ room) :
    readRange s .slot k.val n first room = ⟨.ok, 1, imageOf s .slot k.val first⟩ := by
  have inside : ¬Table.entries s .slot ≤ k.val := Nat.not_le.2 k.isLt
  have last : ¬Table.entries s .slot < k.val + min n 1 := by
    have := k.isLt
    show ¬16 < k.val + min n 1
    omega
  have entry : entryThatFits s .slot k.val first room = some (imageOf s .slot k.val first) := by
    rw [entryThatFits, if_pos rfl, index?_val]
    simp only [slotEntry, List.drop_eq_nil_of_le readers, if_true, if_pos fits]
  have entries : readEntries s .slot first 1 k.val room = (1, imageOf s .slot k.val first ++ []) := by
    rw [readEntries, if_neg inside, entry]
    rfl
  rw [readRange, if_pos rfl, Nat.min_eq_right (Nat.one_le_iff_ne_zero.2 some_), entries, List.append_nil]
  rw [Nat.min_eq_right (Nat.one_le_iff_ne_zero.2 some_)] at last
  rw [if_neg last]
  rfl

/-- READ of a count above 0 within the table (R180). -/
theorem doRead_eq {x : Ctx} {t : Table} {i : Nat} {n : Byte} {s : State} (inside : i < t.entries s) (some_ : n ≠ 0)
    {bs : List Byte} (size : (n :: bs).length = if t = .slot then 2 else 1) :
    doRead x t.code i (n :: bs) s = (s, readRange s t i n.toNat (field (n :: bs) 1 1) x.room) := by
  have count : field (n :: bs) 0 1 = n.toNat := field_one (Nat.zero_lt_succ _)
  have positive : n.toNat ≠ 0 := fun e => some_ (BitVec.eq_of_toNat_eq e)
  simp only [doRead, ofCode_code, decide_eq_false (Nat.not_le.2 inside), decide_eq_false (not_not.2 size), count,
    decide_eq_false positive, refuseIf_false]

/-- Settles O48: the count of R180, and a SLOT entry without readers to carry. -/
theorem readReturnsTheImages : Obligations.ReadReturnsTheImages := by
  intro x t i n first s inside some_
  have command : ∀ bs, exec (.read x t.code i bs) s = .next (record (doRead x t.code i bs s)) := fun _ => rfl
  refine ⟨?_, ?_⟩
  · intro notSlot clips m
    rw [command, doRead_eq inside some_ (by rw [if_neg notSlot]; rfl), record_mk, readRange_eq clips notSlot]
  · rintro rfl readers fits
    have first_ : field [n, first] 1 1 = first.toNat := field_one (by simp)
    have count : n.toNat ≠ 0 := fun e => some_ (BitVec.eq_of_toNat_eq e)
    rw [command, doRead_eq inside some_ rfl, record_mk, first_,
      readRange_slot (k := ⟨i, inside⟩) count (readers ⟨i, inside⟩ rfl) fits]

end Sys2Proof.Machine
end

section
/-!
PROOFS. WRITE in its general form: every table's image is read field by field (R180, R181, section 10.7).
-/
namespace Sys2Proof.Machine
set_option Elab.async false

/-! ### Fields of an image -/

/-- A field of one byte more. -/
theorem field_succ {bs : List Byte} {i w : Nat} (h : i + w < bs.length) :
    field bs i (w + 1) = field bs i w * 256 + (bs.getD (i + w) 0).toNat := by
  have last : (bs.drop i)[w]? = some (bs.getD (i + w) 0) := by
    rw [List.getElem?_drop, List.getD_eq_getElem _ _ h, List.getElem?_eq_getElem h]
  rw [field, List.take_add_one, last, beNat_append]
  simp [field, beNat]

theorem field_three {bs : List Byte} {i : Nat} (h : i + 2 < bs.length) :
    field bs i 3 = ((bs.getD i 0).toNat * 256 + (bs.getD (i + 1) 0).toNat) * 256 + (bs.getD (i + 2) 0).toNat := by
  rw [field_succ h, field_two (by omega)]

theorem field_four {bs : List Byte} {i : Nat} (h : i + 3 < bs.length) :
    field bs i 4 = (((bs.getD i 0).toNat * 256 + (bs.getD (i + 1) 0).toNat) * 256 + (bs.getD (i + 2) 0).toNat) * 256 +
      (bs.getD (i + 3) 0).toNat := by
  rw [field_succ h, field_three (by omega)]

theorem field_five {bs : List Byte} {i : Nat} (h : i + 4 < bs.length) :
    field bs i 5 = field bs i 4 * 256 + (bs.getD (i + 4) 0).toNat := field_succ h

theorem field_eight {bs : List Byte} {i : Nat} (h : i + 7 < bs.length) :
    field bs i 8 = field bs i 4 * 4294967296 + field bs (i + 4) 4 := by
  rw [field_succ h, field_succ (by omega), field_succ (by omega), field_succ (by omega),
    field_four (i := i + 4) (by omega)]
  simp only [Nat.add_assoc, Nat.reduceAdd]
  ring

theorem testBit_one (n : Nat) : n.testBit 1 = decide (n / 2 % 2 = 1) := by
  rw [Nat.testBit_succ, Nat.testBit_zero]

theorem flagOf_eq {n : Nat} (h : n = 0 ∨ n = 1) : flagOf n = decide (n = 1) := by
  rcases h with rfl | rfl <;> rfl

theorem toInt_sixteen {n : Nat} (h : n < 65536) :
    (BitVec.ofNat 16 n).toInt = if n < 32768 then (n : Int) else (n : Int) - 65536 := by
  rw [BitVec.toInt_eq_toNat_cond, BitVec.toNat_ofNat, Nat.mod_eq_of_lt h]
  by_cases low : n < 32768
  · rw [if_pos (by omega), if_pos low]
  · rw [if_neg (by omega), if_neg low]
    rfl

/-! ### The write of a table by its image -/

/-- An area of the image's length is the write of the table's own form, which refuses an index beyond the table with
BAD_INDEX as WRITE does (R180). -/
theorem exec_write {x : Ctx} {t : Table} {code i : Nat} {bs : List Byte} {s : State} (named : code = t.code)
    (writable : t.writable = true) (size : bs.length = t.imageBytes)
    (beyond : t.entries s ≤ i → writeImage x.cls t i bs s = (s, .badIndex)) :
    exec (.write x code i bs) s = .next (record (codeOnly (writeImage x.cls t i bs s))) := by
  have command : exec (.write x code i bs) s = .next (record (doWrite x code i bs s)) := rfl
  rw [command, named]
  by_cases inside : t.entries s ≤ i
  · rw [beyond inside]
    simp only [doWrite, ofCode_code, writable, decide_eq_true inside, Bool.not_true, refuseIf_false, refuseIf_true]
    rfl
  · rw [doWrite_inside writable (Nat.not_le.1 inside) size]

/-- A ROUTE image of state FREE is the write that frees the entry. -/
theorem writeRoute_free {cls : Fin 4} {i : Nat} {w : Nat × RouteImg} {s : State} (h : w.1 = 0) :
    writeRoute cls i w s = writeRouteFree cls i w.2.guard s := by
  simp only [writeRoute, h]

/-- A ROUTE image of state ACTIVE is the write that makes the entry ACTIVE. -/
theorem writeRoute_active {cls : Fin 4} {i : Nat} {w : Nat × RouteImg} {s : State} (h : w.1 = 1) :
    writeRoute cls i w s = writeRouteActive cls i w.2 s := by
  simp only [writeRoute, h]

/-- Settles O50: each image is read with its fields at their offsets, and the refusals come before. -/
theorem writeDecodesTheImage : Obligations.WriteDecodesTheImage := by
  intro x i bs s b
  have refused {code : Nat} {c : Code} (h : doWrite x code i bs s = (s, c.only)) :
      exec (.write x code i bs) s = .next (s.codeAnswered c) := by
    have command : exec (.write x code i bs) s = .next (record (doWrite x code i bs s)) := rfl
    rw [command, h]
    rfl
  refine ⟨fun size state => ?_, fun size state => ?_, ?_⟩
  · have code : (readRoute bs).1 = 0 := (field_one (by omega)).trans state
    refine (exec_write (t := .route) rfl rfl size fun h => ?_).trans ?_
    · exact (writeRoute_free code).trans (atIndex_ge h _ _)
    · have guard : (readRoute bs).2.guard = b 11 := field_one (by omega)
      rw [writeImage, writeRoute_free code, guard]
      rfl
  · have code : (readRoute bs).1 = 1 := (field_one (by omega)).trans state
    refine (exec_write (t := .route) rfl rfl size fun h => ?_).trans ?_
    · exact (writeRoute_active code).trans (atIndex_ge h _ _)
    · rw [writeImage, writeRoute_active code]
      refine congrArg (fun w => Host.Outcome.next (record (codeOnly (writeRouteActive x.cls i w s)))) ?_
      simp (disch := omega) only [readRoute, optField, field_one, field_two, Nat.testBit_zero, decide_eq_true_eq]
      rfl
  intro b2 b3 b4 stamp
  refine ⟨fun size => ?_, fun size => ?_, fun size => ?_, fun size flag => ?_, fun size flag => ?_, fun size => ?_,
    fun size => ?_, fun size flag => ?_, fun size => ?_, fun n size cls => ?_, fun size => ?_, fun size flag => ?_,
    fun code h => refused ?_, fun t writable beyond => refused ?_, fun t writable inside size => refused ?_⟩
  · refine (exec_write (t := .service) rfl rfl size fun h => atIndex_ge h _ _).trans ?_
    refine congrArg (a₂ := (_, _))
      (fun w => Host.Outcome.next (record (codeOnly (writeService x.cls i w.1 w.2 s)))) ?_
    simp (disch := omega) only [readService, optField, field_one, field_two, field_three, field_four,
      Nat.testBit_zero, decide_eq_true_eq]
    rfl
  · refine (exec_write (t := .event) rfl rfl size fun h => atIndex_ge h _ _).trans ?_
    refine congrArg (fun w => Host.Outcome.next (record (codeOnly (writeEvent x.cls i w s)))) ?_
    have clips : (List.range (min (b 14) 8)).map (fun j => field bs (15 + 2 * j) 2) =
        (List.range (min (b 14) 8)).map (fun j => b2 (15 + 2 * j)) := by
      refine List.map_congr_left fun j h => field_two ?_
      have := List.mem_range.1 h
      omega
    rw [← clips]
    simp (disch := omega) only [readEvent, stampAt, optField, field_one, field_five, field_four, Nat.testBit_zero,
      testBit_one, decide_eq_true_eq]
    rfl
  · refine (exec_write (t := .clip) rfl rfl size fun h => atIndex_ge h _ _).trans ?_
    refine congrArg (fun w => Host.Outcome.next (record (codeOnly (writeClip x.cls i w s)))) ?_
    have trim : b2 19 < 65536 := by
      have h1 : b 19 < 256 := (bs.getD 19 0).isLt
      have h2 : b 20 < 256 := (bs.getD 20 0).isLt
      show b 19 * 256 + b 20 < 65536
      omega
    rw [← toInt_sixteen trim]
    simp (disch := omega) only [readClip, stampAt, field_one, field_two, field_three, field_five, field_four]
    rfl
  · refine (exec_write (t := .window) rfl rfl size fun h => atIndex_ge h _ _).trans ?_
    refine congrArg (fun w => Host.Outcome.next (record (codeOnly (writeWindow x.cls i w s)))) ?_
    rw [← flagOf_eq flag]
    simp (disch := omega) only [readWindow, field_one, field_five, field_four]
    rfl
  · refine (exec_write (t := .alert) rfl rfl size fun h => atIndex_ge h _ _).trans ?_
    refine congrArg (fun w => Host.Outcome.next (record (codeOnly (writeAlert x.cls i w s)))) ?_
    rw [← flagOf_eq flag]
    simp (disch := omega) only [readAlert, optField, field_one, field_two, field_eight, field_four,
      Nat.testBit_zero, decide_eq_true_eq]
    rfl
  · refine (exec_write (t := .counter) rfl rfl size fun h => atIndex_ge h _ _).trans ?_
    refine congrArg (fun w => Host.Outcome.next (record (codeOnly (writeCounter x.cls i w s)))) ?_
    simp (disch := omega) only [readCounter, formAt, field_one, field_two]
    rfl
  · refine (exec_write (t := .cueline) rfl rfl size fun h => atIndex_ge h _ _).trans ?_
    refine congrArg (fun w => Host.Outcome.next (record (codeOnly (writeCueline x.cls i w s)))) ?_
    simp (disch := omega) only [readCueline, formAt, field_one]
    rfl
  · refine (exec_write (t := .channel) rfl rfl size fun h => atIndex_ge h _ _).trans ?_
    refine congrArg (fun w => Host.Outcome.next (record (codeOnly (writeChannel x.cls i w s)))) ?_
    rw [← flagOf_eq flag]
    simp (disch := omega) only [readChannel, field_one, field_two]
    rfl
  · refine (exec_write (t := .inlane) rfl rfl size fun h => atIndex_ge h _ _).trans ?_
    exact congrArg (fun w => Host.Outcome.next (record (codeOnly (writeInlane x.cls i w s)))) (field_two (by omega))
  · have timeout : field bs 1 2 = b 1 * 256 + b 2 := field_two (by omega)
    refine (exec_write (t := .inlane) rfl rfl size fun h => atIndex_ge h _ _).trans ?_
    rw [writeImage, timeout, writeInlane_accepted cls]
    rfl
  · refine (exec_write (t := .outlane) rfl rfl size fun h => atIndex_ge h _ _).trans ?_
    exact congrArg (fun w => Host.Outcome.next (record (codeOnly (writeOutlane x.cls i w s)))) (field_two (by omega))
  · refine (exec_write (t := .store) rfl rfl size fun h => atIndex_ge h _ _).trans ?_
    refine congrArg (fun w => Host.Outcome.next (record (codeOnly (writeStore x.cls i w s)))) ?_
    rw [← flagOf_eq flag]
    simp (disch := omega) only [readStore, field_one]
    rfl
  · by_cases unknown : 15 ≤ code
    · simp only [doWrite, ofCode_none unknown]
    · have notWritten : ∃ t : Table, code = t.code ∧ t.writable = false := by
        have cases : code = 5 ∨ code = 13 ∨ code = 14 := by omega
        rcases cases with rfl | rfl | rfl
        · exact ⟨.slot, rfl, rfl⟩
        · exact ⟨.log, rfl, rfl⟩
        · exact ⟨.part, rfl, rfl⟩
      obtain ⟨t, rfl, readOnly⟩ := notWritten
      simp only [doWrite, ofCode_code, readOnly, Bool.not_false, refuseIf_true]
  · simp only [doWrite, ofCode_code, writable, decide_eq_true beyond, Bool.not_true, refuseIf_false, refuseIf_true]
  · simp only [doWrite, ofCode_code, writable, decide_eq_false (Nat.not_le.2 inside), decide_eq_true size,
      Bool.not_true, refuseIf_false, refuseIf_true]

end Sys2Proof.Machine
end

section
/-!
PROOFS. What the feeder, the schedule unit, the service engine, the alert controller, the store port and the cue unit
leave alone: the station time, the lanes, the routes, the loaded windows and clips, and management.
-/
namespace Sys2Proof.Machine
set_option Elab.async false

/-- From `s` to `t` the lanes, the routes, the windows, the clips and management are as before; so are the store fault
flag and the counters, unless the change may come from the store port or the cue unit (`b`). -/
structure Kept (b : Bool) (s t : State) : Prop where
  now : t.now = s.now := by rfl
  windowStart : t.windowStart = s.windowStart := by rfl
  inLanes : t.inLanes = s.inLanes := by rfl
  routes : t.routes = s.routes := by rfl
  windows : t.windows = s.windows := by rfl
  clips : t.clips = s.clips := by rfl
  outLanes : t.outLanes = s.outLanes := by rfl
  channels : t.channels = s.channels := by rfl
  intake : t.intake = s.intake := by rfl
  lastResult : t.lastResult = s.lastResult := by rfl
  pending : t.pending = s.pending := by rfl
  fault : b = false → t.storeFaultSeen = s.storeFaultSeen := by exact fun _ => rfl
  counters : b = false → t.counters = s.counters := by exact fun _ => rfl

section Kept
variable {b : Bool} {s t : State}

theorem Kept.refl (s : State) : Kept b s s := {}

/-- A change of the programmes, the port, the lines or what is due alone. -/
theorem Kept.rest {sv : Tbl Service 64} {ev : Tbl Event 256} {sc : Tbl (List EventId) 64} {lg : List LogEntry}
    {sl : Tbl Slot 16} {w : List Claimant} {p : Port} {al : Tbl Alert 8} {li : Tbl CueLine 8}
    {dr : Nat} {du : List Due} (h : Kept b s t) :
    Kept b s { t with
      services := sv, events := ev, sched := sc, log := lg, slots := sl, waitList := w, port := p, alerts := al
      lines := li, draws := dr, due := du } :=
  ⟨h.now, h.windowStart, h.inLanes, h.routes, h.windows, h.clips, h.outLanes, h.channels, h.intake, h.lastResult,
    h.pending, h.fault, h.counters⟩

theorem Kept.foldl {α : Type} {f : State → α → State} (step : ∀ u a, Kept b s u → Kept b s (f u a)) :
    ∀ (l : List α) {t : State}, Kept b s t → Kept b s (l.foldl f t)
  | [], _, h => h
  | a :: l, _, h => Kept.foldl step l (step _ a h)

theorem Kept.onSlot {k : Option SlotId} {f : SlotId → State → State} (step : ∀ k u, Kept b s u → Kept b s (f k u))
    (h : Kept b s t) : Kept b s (onSlot k f t) := by
  cases k with
  | none => exact h
  | some k => exact step k t h

theorem Kept.oneEvent {f : State → State} (h : Kept b s (f t)) : Kept b s (oneEvent f t) := h.rest

/-- The cue unit may change the counters. -/
theorem Kept.clocked {li : Tbl CueLine 8} {co : Tbl Counter 16} {du : List Due} {p : Port} (h : Kept true s t) :
    Kept true s { t with lines := li, counters := co, due := du, port := p } :=
  ⟨h.now, h.windowStart, h.inLanes, h.routes, h.windows, h.clips, h.outLanes, h.channels, h.intake, h.lastResult,
    h.pending, nofun, nofun⟩

theorem Kept.cueOnly {u : State} (h : Kept true s t) (k : CueOnly t u) : Kept true s u := by
  obtain ⟨l, c, d, rfl⟩ := k
  exact h.clocked

/-! ### The feeder -/

theorem Kept.seekReaders (k : SlotId) (h : Kept b s t) : Kept b s (seekReaders k t) :=
  (Kept.foldl (fun u r hu => by
    unfold takeBase
    split
    · split
      · exact hu.rest
      · exact hu
    · exact hu) _ h).rest

theorem Kept.slipReaders (k : SlotId) (h : Kept b s t) : Kept b s (slipReaders k t) := by
  unfold Machine.slipReaders
  dsimp only
  split
  · refine (Kept.foldl (fun u r hu => ?_) _ h).rest
    unfold noteSlip
    split
    · exact hu
    · exact hu.rest
  · exact h

theorem Kept.settleRing (k : SlotId) (h : Kept b s t) : Kept b s (settleRing k t) :=
  (((h.seekReaders k).rest.slipReaders k).seekReaders k).rest

theorem Kept.attachJoin (k : SlotId) (v : SvcId) (h : Kept b s t) : Kept b s (attachJoin k v t) :=
  Kept.settleRing k (t := attach k v _ .join t) h.rest

theorem Kept.detach (v : SvcId) (h : Kept b s t) : Kept b s (detach v t) := by
  unfold Machine.detach
  split
  · exact h
  · exact Kept.settleRing _ h.rest

theorem Kept.claimSlot (k : SlotId) (o : Owner) (h : Kept b s t) : Kept b s (claimSlot k o t) := by
  rcases claimSlot_cases k o t with ⟨_, _, e⟩ | ⟨_, e⟩ <;> rw [e] <;> exact h.rest

theorem Kept.grantLoss (k : SlotId) (v : SvcId) (h : Kept b s t) : Kept b s (grantLoss k v t) :=
  (h.claimSlot k (.loss v)).rest

theorem Kept.handOver (k : SlotId) : ∀ (l : List Claimant) {t : State}, Kept b s t → Kept b s (handOver k l t)
  | [], _, h => h.rest
  | .event e :: l, _, h => Kept.claimSlot k (.event e) h.rest
  | .loss v :: l, t, h => by
    unfold Machine.handOver
    split
    · exact Kept.grantLoss k v h.rest
    · exact Kept.handOver k l h.rest

theorem Kept.slotGone (k : SlotId) (h : Kept b s t) : Kept b s (slotGone k t) := by
  rcases slotGone_cases k t with e | ⟨_, _, _, _, _, e | e⟩ <;> rw [e]
  · exact h
  · exact h.rest
  · exact h.rest

theorem Kept.detachAll (k : SlotId) (h : Kept b s t) : Kept b s (detachAll k t) :=
  Kept.foldl (fun _ _ hu => hu.rest) _ h

theorem Kept.emptySlot (k : SlotId) (h : Kept b s t) : Kept b s (emptySlot k t) :=
  Kept.slotGone k (h.detachAll k).rest

theorem Kept.releaseSlot (k : SlotId) (h : Kept b s t) : Kept b s (releaseSlot k t) := (h.emptySlot k).handOver k _

/-! ### The schedule unit and the service engine -/

theorem Kept.closeEvent (e : EventId) (o : Outcome) (f : OutFlags) (h : Kept b s t) : Kept b s (closeEvent e o f t) := by
  rcases closeEvent_cases e o f t with ⟨_, e⟩ | ⟨_, _, _, _, _, _, e⟩ <;> rw [e]
  · exact h
  · exact h.rest

theorem Kept.closeScheduled (e : EventId) (o : Outcome) (f : OutFlags) (h : Kept b s t) :
    Kept b s (closeScheduled e o f t) := Kept.closeEvent e o f (t := leaveList e t) h.rest

theorem Kept.cue (v : SvcId) (e : EventId) (h : Kept b s t) : Kept b s (Machine.cue v e t) := by
  unfold Machine.cue
  dsimp only
  split
  · exact Kept.claimSlot _ _ h.rest
  · exact h.rest

theorem Kept.endCueing (e : EventId) (o : Outcome) (f : OutFlags) (h : Kept b s t) : Kept b s (endCueing e o f t) := by
  have gone : Kept b s (goNetwork (t.event e).service (Machine.closeEvent e o f t)) := (h.closeEvent e o f).rest
  unfold Machine.endCueing dropClaim
  split
  · exact gone.releaseSlot _
  · exact gone.rest

theorem Kept.leaveCueing (v : SvcId) (o : Outcome) (f : OutFlags) (h : Kept b s t) :
    Kept b s (leaveCueing v o f t) := by
  unfold Machine.leaveCueing
  split
  · exact h.endCueing _ o f
  · exact h.rest

theorem Kept.stopFetch (k : SlotId) (h : Kept b s t) : Kept b s (stopFetch k t) := h.rest

theorem Kept.earlyEnd (e : EventId) (o : Option Outcome) (f : OutFlags) (h : Kept b s t) :
    Kept b s (earlyEnd e o f t) :=
  Kept.onSlot (fun k _ hu => hu.stopFetch k) (t := (reportActive e o f t).modSvc _ _) h.rest

theorem Kept.lossFill (v : SvcId) (h : Kept b s t) : Kept b s (lossFill v t) := by
  unfold Machine.lossFill
  split
  · split
    · exact h.grantLoss _ v
    · exact h.rest
  · exact h.rest

theorem Kept.dropLossSlot (v : SvcId) (h : Kept b s t) : Kept b s (dropLossSlot v t) :=
  Kept.onSlot (fun k _ hu => hu.releaseSlot k) h

theorem Kept.sourceLost (v : SvcId) (h : Kept b s t) : Kept b s (sourceLost v t) := by
  unfold Machine.sourceLost
  dsimp only
  split
  · split
    · exact h
    · exact h.lossFill v
  · exact (h.leaveCueing v _ _).lossFill v
  · split
    · exact h.rest
    · exact Kept.lossFill v (t := goNetwork v t) h.rest
  · exact Kept.lossFill v (t := goNetwork v t) h.rest
  · exact h

theorem Kept.endActivity (v : SvcId) (h : Kept b s t) : Kept b s (endActivity v t) := by
  unfold Machine.endActivity
  dsimp only
  split
  · exact h.rest
  · split
    · exact Kept.rest (t := t.leaveWait _) h.rest
    · exact h
  · exact h.leaveCueing v _ _
  · exact h.dropLossSlot v
  · exact h.dropLossSlot v
  · split
    · exact Kept.onSlot (fun k _ hu => hu.releaseSlot k) (h.closeEvent _ _ _)
    · exact h
  · exact h

theorem Kept.joinOwner (v : SvcId) (a : AlertId) (h : Kept b s t) : Kept b s (joinOwner v a t) := by
  unfold Machine.joinOwner
  split
  · exact Kept.onSlot (fun k _ hu => hu.attachJoin k v) h
  · exact h

theorem Kept.ownerGained (v : SvcId) (a : AlertId) (h : Kept b s t) : Kept b s (ownerGained v a t) :=
  (h.endActivity v).rest.joinOwner v a

theorem Kept.ownerChanged (v : SvcId) (a : AlertId) (h : Kept b s t) : Kept b s (ownerChanged v a t) :=
  (h.detach v).rest.joinOwner v a

theorem Kept.ownerLost (v : SvcId) (h : Kept b s t) : Kept b s (ownerLost v t) := by
  have left : Kept b s ((Machine.detach v t).modSvc v (fun x => { x.toNetwork with owner := none })) := (h.detach v).rest
  unfold Machine.ownerLost
  dsimp only
  split
  · exact left
  · split
    · exact left.rest
    · exact left.lossFill v

theorem Kept.reclaimTold (o : Option Owner) (h : Kept b s t) : Kept b s (reclaimTold o t) := by
  unfold Machine.reclaimTold
  split
  · unfold reclaimEvent
    dsimp only
    split
    · exact (h.closeEvent _ _ _).rest
    · exact Kept.rest (t := (reportActive _ _ _ t).modSvc _ _) h.rest
  · unfold reclaimLoss
    split
    · exact h
    · exact h.rest
  · exact h

/-! ### The alert controller -/

theorem Kept.reportOwner (h : Kept b s t) (v : SvcId) : Kept b s (reportOwner t v) := by
  unfold Machine.reportOwner
  split
  · exact h.ownerGained v _
  · split
    · exact h
    · exact h.ownerChanged v _
  · exact h.ownerLost v
  · exact h

theorem Kept.recompute (g : BitVec 64) (h : Kept b s t) : Kept b s (recompute g t) :=
  Kept.foldl (fun _ v hu => hu.reportOwner v) _ h

theorem Kept.alertSlot (a : AlertId) (h : Kept b s t) : Kept b s (alertSlot a t).1 := by
  unfold Machine.alertSlot
  split
  · exact Kept.claimSlot _ (.alert a) h
  · split
    · show Kept b s (reclaim _ a t)
      exact ((h.reclaimTold _).emptySlot _).claimSlot _ _
    · exact h

theorem Kept.activate (a : AlertId) (h : Kept b s t) : Kept b s (activate a t) :=
  Kept.oneEvent (Kept.recompute _ (Kept.rest (t := renewLease a _) (h.alertSlot a).rest))

theorem Kept.endChannel (a : AlertId) (h : Kept b s t) : Kept b s (endChannel a t) :=
  Kept.oneEvent (Kept.recompute _ (Kept.onSlot (fun k _ hu => hu.releaseSlot k) h).rest)

theorem Kept.counterAlertOn (a : AlertId) (h : Kept b s t) : Kept b s (counterAlertOn a t) := by
  unfold Machine.counterAlertOn
  dsimp only
  split
  · exact h.rest
  · split
    · exact h.rest
    · exact h.activate a

/-! ### What follows an event -/

theorem Kept.finish (h : Kept true s t) : Kept true s (finish t) := by
  obtain ⟨l, c, d, ph, e⟩ := finish_frame t
  rw [e]
  exact h.clocked

/-! ### The store port -/

theorem Kept.portTest (h : Kept b s t) : Kept b s (portTest t) := by
  rcases portTest_cases t with ⟨e, _⟩ | ⟨e, _⟩ <;> rw [e]
  · exact h
  · exact h.rest

theorem Kept.endTenure (h : Kept b s t) : Kept b s (endTenure t) := by
  rcases endTenure_cases t with ⟨_, e⟩ | ⟨_, e⟩ <;> rw [e]
  · exact h.rest
  · exact Kept.portTest h.rest

/-- The store port may set the store fault flag. -/
theorem Kept.faultSeen (h : Kept true s t) : Kept true s t.faultSeen :=
  ⟨h.now, h.windowStart, h.inLanes, h.routes, h.windows, h.clips, h.outLanes, h.channels, h.intake, h.lastResult,
    h.pending, nofun, nofun⟩

theorem Kept.weaken (h : Kept false s t) : Kept b s t :=
  ⟨h.now, h.windowStart, h.inLanes, h.routes, h.windows, h.clips, h.outLanes, h.channels, h.intake, h.lastResult,
    h.pending, fun _ => h.fault rfl, fun _ => h.counters rfl⟩

theorem Kept.fetchFault (k : SlotId) (h : Kept b s t) : Kept b s (fetchFault k t) := by
  have cleared : Kept b s (t.modSlot k (fun y => { y with inFlight := none })) := h.rest
  unfold Machine.fetchFault
  dsimp only
  split
  · exact cleared
  · split
    · exact cleared
    · unfold adFault
      split
      · exact cleared.endCueing _ _ _
      · exact (cleared.earlyEnd _ _ _).stopFetch k
      · exact cleared
    · exact Kept.rest (t := advanceCursor k _) cleared.rest
    · exact Kept.rest (t := skipCell k _) (Kept.rest (t := advanceCursor k _) cleared.rest)

theorem Kept.decideNext : ∀ (n : Nat) {t : State}, Kept true s t → Kept true s (decideNext n t)
  | 0, _, h => h.endTenure
  | n + 1, t, h => by
    unfold Machine.decideNext
    split
    · exact h.endTenure
    · split
      · exact h.rest
      · split
        · split
          · exact h.endTenure
          · split
            · exact Kept.decideNext n (Kept.fetchFault _ (Kept.faultSeen (Kept.rest (t := t) h)))
            · exact h.rest
        · exact h.endTenure

theorem Kept.nextStep (h : Kept true s t) : Kept true s (nextStep t) := h.decideNext 9

theorem Kept.finishFrom {u : State} (h : Kept true s t) : Kept true s (finishFrom u t) := by
  unfold Machine.finishFrom
  split
  · exact (Kept.oneEvent h.nextStep).finish
  · exact h.finish

theorem Kept.event {f : State → State} (h : Kept true s (f t)) : Kept true s (event f t) := h.oneEvent.finishFrom

/-! ### Starting an event, and the expiries -/

theorem Kept.spliceEvent (e : EventId) (h : Kept b s t) : Kept b s (spliceEvent e t) := by
  unfold Machine.spliceEvent
  dsimp only
  split
  · exact h.closeScheduled _ _ _
  · split
    · split
      · exact Kept.cue _ _ h.rest
      · exact h.closeScheduled _ _ _
    · exact h.closeScheduled _ _ _

theorem Kept.fireTarget (x : Target) (h : Kept b s t) : Kept b s (fireTarget x t) := by
  unfold Machine.fireTarget
  split
  · exact h
  · split
    · exact h.spliceEvent _
    · exact h
  · exact h.counterAlertOn _
  · unfold counterAlertRenew
    split
    · exact h.rest
    · exact h

theorem Kept.takeClock : ∀ (n : Nat) (c : CounterId) {t : State}, Kept true s t → Kept true s (takeClock n c t)
  | 0, _, _, h => h
  | n + 1, c, t, h => by
    have fired : Kept true s (Machine.fireTarget (t.counter c).target (expireCounter c t)) :=
      (h.cueOnly (expireCounter_cueOnly c t)).fireTarget _
    unfold Machine.takeClock
    dsimp only
    split
    · exact h
    · split
      · exact h.clocked
      · split
        · exact fired
        · split
          · exact Kept.takeClock n _ fired
          · exact fired

theorem Kept.expiryStep (c : CounterId) (h : Kept true s t) : Kept true s (expiryStep c t) := (h.takeClock 16 c).event

theorem Kept.settleFresh {u : State} (h : Kept true s t) : Kept true s (settleFresh u t) := by
  have fresh : ∀ (n : Nat) (old : List Due) {t : State}, Kept true s t → Kept true s (takeFresh n old t) := by
    intro n
    induction n with
    | zero => exact fun _ _ h => h
    | succ n ih =>
      intro old t h
      unfold takeFresh
      split
      · exact h
      · exact ih _ (Kept.expiryStep _ h.rest)
  exact fresh _ _ h

theorem Kept.cancelEvent (e : EventId) (h : Kept b s t) : Kept b s (cancelEvent e t) := by
  unfold Machine.cancelEvent
  split
  · exact h.closeScheduled _ _ _
  · exact h.endCueing _ _ _
  · split
    · exact h
    · exact h.earlyEnd _ _ _
  · exact h

end Kept
end Sys2Proof.Machine
end

section
/-!
PROOFS. The control cell at the front of the intake, its records and its response (R173 to R177).
-/
namespace Sys2Proof.Machine
set_option Elab.async false

/-! ### No record reaches the intake -/

theorem checked_intake {l : List (Bool × Code)} {s t : State} (h : t.intake = s.intake) :
    (checked l s t).1.intake = s.intake := by
  rcases checked_cases l s t with ⟨_, _, e⟩ | ⟨_, e⟩ <;> rw [e]
  exact h

theorem atIndex_intake {n i : Nat} {s : State} {f : Fin n → State × Code} (h : ∀ k, (f k).1.intake = s.intake) :
    (atIndex n i s f).1.intake = s.intake := by
  unfold atIndex
  split
  · exact h _
  · rfl

theorem entryAt_intake {n i : Nat} {s : State} {f : Fin n → Answered} (h : ∀ k, (f k).1.intake = s.intake) :
    (entryAt n i s f).1.intake = s.intake := by
  unfold entryAt
  split
  · exact h _
  · rfl

theorem refuseIf_intake {bad : Bool} {c : Code} {s : State} {r : Answered} (h : r.1.intake = s.intake) :
    (refuseIf bad c s r).1.intake = s.intake := by
  cases bad
  · exact h
  · rfl

theorem answered_intake {s t : State} {r : Result} (h : t.intake = s.intake) :
    ((t, r) : Answered).1.intake = s.intake := h

theorem CueOnly.intake {s t : State} (h : CueOnly s t) : t.intake = s.intake := by
  obtain ⟨l, c, d, rfl⟩ := h
  rfl

theorem turnLine_intake (n : LineId) (old new : Direction) (s : State) : (turnLine n old new s).intake = s.intake := by
  unfold turnLine
  split
  · rfl
  · rfl
  · exact (drive_cueOnly n _ _).intake

theorem writeCueline_intake (cls : Fin 4) (i : Nat) (w : CueLineImg) (s : State) :
    (writeCueline cls i w s).1.intake = s.intake := by
  refine atIndex_intake fun n => ?_
  dsimp only
  split
  · rfl
  · exact turnLine_intake n _ _ _
  · rfl

theorem storeRoute_intake (r : RouteId) (x : Route) (s : State) : (storeRoute r x s).intake = s.intake := by
  rw [storeRoute_eq]

theorem moveService_intake (v : SvcId) (network : Bool) (s : State) : (moveService v network s).intake = s.intake := by
  unfold moveService
  split <;> rfl

theorem storeEvent_intake (e : EventId) (x : Event) (s : State) : (storeEvent e x s).intake = s.intake := by
  unfold storeEvent
  dsimp only
  split <;> rfl

theorem writeRoute_intake (cls : Fin 4) (i : Nat) (w : Nat × RouteImg) (s : State) :
    (writeRoute cls i w s).1.intake = s.intake := by
  unfold writeRoute
  split
  · exact atIndex_intake fun r => checked_intake rfl
  · exact atIndex_intake fun r => checked_intake (storeRoute_intake r _ s)
  · exact atIndex_intake fun r => checked_intake rfl

theorem writeImage_intake (cls : Fin 4) (t : Table) (i : Nat) (bs : List Byte) (s : State) :
    (writeImage cls t i bs s).1.intake = s.intake := by
  cases t with
  | route => exact writeRoute_intake cls i _ s
  | service => exact atIndex_intake fun v => checked_intake (moveService_intake v _ _)
  | event => exact atIndex_intake fun e => checked_intake (storeEvent_intake e _ s)
  | clip => exact atIndex_intake fun c => checked_intake rfl
  | window => exact atIndex_intake fun k => checked_intake rfl
  | alert => exact atIndex_intake fun a => checked_intake rfl
  | counter => exact atIndex_intake fun c => checked_intake rfl
  | cueline => exact writeCueline_intake cls i _ s
  | channel => exact atIndex_intake fun h => checked_intake rfl
  | inlane => exact atIndex_intake fun n => checked_intake rfl
  | outlane => exact atIndex_intake fun n => checked_intake rfl
  | store => exact atIndex_intake fun _ => checked_intake (Kept.rest (b := true) (Kept.refl s)).portTest.intake
  | slot => rfl
  | log => rfl
  | part => rfl

theorem modAt_intake {n i : Nat} {s : State} {f : Fin n → State} (h : ∀ k, (f k).intake = s.intake) :
    (modAt n i s f).intake = s.intake := by
  unfold modAt
  split
  · exact h _
  · rfl

theorem clearItems_intake (t : Table) (i mask : Nat) (s : State) : (clearItems t i mask s).intake = s.intake := by
  cases t with
  | route => exact modAt_intake fun _ => rfl
  | service => exact modAt_intake fun _ => rfl
  | alert => exact modAt_intake fun _ => rfl
  | inlane => exact modAt_intake fun _ => rfl
  | outlane => exact modAt_intake fun _ => rfl
  | channel => exact modAt_intake fun _ => rfl
  | _ => rfl

theorem foldl_intake {α : Type} {f : State → α → State} (h : ∀ s a, (f s a).intake = s.intake) (l : List α) (s : State) :
    (l.foldl f s).intake = s.intake := by
  induction l generalizing s with
  | nil => rfl
  | cons a l ih => exact (ih _).trans (h s a)

theorem restartEvent_intake (s : State) (e : EventId) : (restartEvent s e).intake = s.intake := by
  unfold restartEvent
  split
  · exact ((Kept.refl (b := true) s).closeEvent e _ _).intake
  · exact ((Kept.refl (b := true) s).closeEvent e _ _).intake
  · rfl

theorem restartService_intake (s : State) (v : SvcId) : (restartService s v).intake = s.intake := by
  unfold restartService
  dsimp only
  split <;> rfl

theorem restartStorePort_intake (s : State) : (restartStorePort s).intake = s.intake := by
  rcases restartStorePort_cases s with ⟨_, e⟩ | ⟨_, _, _, e | e⟩ <;> rw [e] <;> rfl

theorem restartBlocks_intake (s : State) : (restartBlocks s).intake = s.intake := by
  have services := foldl_intake restartService_intake (List.finRange 64) s
  unfold restartBlocks
  generalize (List.finRange 64).foldl restartService s = t at services ⊢
  exact (restartStorePort_intake _).trans services

theorem oneEvent_intake (f : State → State) (s : State) : (oneEvent f s).intake = (f s).intake := rfl

theorem restartPart_intake (s : State) : (restartPart s).intake = s.intake := by
  have events : (oneEvent (fun s => (List.finRange 256).foldl restartEvent s) s).intake = s.intake := by
    rw [oneEvent_intake]
    exact foldl_intake restartEvent_intake (List.finRange 256) s
  unfold restartPart
  generalize oneEvent (fun s => (List.finRange 256).foldl restartEvent s) s = t at events ⊢
  exact (settleTallies_cueOnly _).intake.trans ((restartBlocks_intake t).trans events)

theorem actionRecord_intake {want : Table} {r : RawRecord} {s : State} {act : Answered} (h : act.1.intake = s.intake) :
    (actionRecord want r s act).1.intake = s.intake := by
  unfold actionRecord
  split
  · rfl
  · exact refuseIf_intake (refuseIf_intake (refuseIf_intake h))

theorem doRead_intake (x : Ctx) (table i : Nat) (bs : List Byte) (s : State) :
    (doRead x table i bs s).1.intake = s.intake := by
  unfold doRead
  split
  · rfl
  · exact refuseIf_intake (refuseIf_intake (refuseIf_intake rfl))

theorem doWrite_intake (x : Ctx) (table i : Nat) (bs : List Byte) (s : State) :
    (doWrite x table i bs s).1.intake = s.intake := by
  unfold doWrite
  split
  · rfl
  · exact refuseIf_intake (refuseIf_intake (refuseIf_intake (writeImage_intake x.cls _ i bs s)))

theorem pointRecord_intake (x : Ctx) (r : RawRecord) (s : State) : (pointRecord x r s).1.intake = s.intake := by
  unfold pointRecord
  split
  · rfl
  · refine refuseIf_intake (refuseIf_intake ?_)
    unfold doPoint
    split
    · rfl
    · exact refuseIf_intake rfl

theorem doPut_intake (x : Ctx) (bs : List Byte) (s : State) : (doPut x bs s).1.intake = s.intake := by
  unfold doPut
  split
  · rfl
  · refine refuseIf_intake (refuseIf_intake ?_)
    split
    · rfl
    · exact writeImage_intake x.cls _ _ bs s

theorem doGet_intake (x : Ctx) (bs : List Byte) (s : State) : (doGet x bs s).1.intake = s.intake := by
  unfold doGet
  split
  · rfl
  · refine refuseIf_intake (refuseIf_intake ?_)
    split <;> rfl

theorem doAlertOn_intake (x : Ctx) (i : Nat) (s : State) : (doAlertOn x i s).1.intake = s.intake := by
  refine entryAt_intake fun a => refuseIf_intake ?_
  split
  · rfl
  · exact refuseIf_intake (refuseIf_intake (answered_intake ((Kept.refl s).activate a).finishFrom.intake))

theorem doTakeLog_intake (x : Ctx) (s : State) : (doTakeLog x s).1.intake = s.intake := by
  unfold doTakeLog
  split
  · rfl
  · exact refuseIf_intake (refuseIf_intake rfl)

theorem doClear_intake (x : Ctx) (table i : Nat) (bs : List Byte) (s : State) :
    (doClear x table i bs s).1.intake = s.intake := by
  unfold doClear
  split
  · rfl
  · exact refuseIf_intake (refuseIf_intake (refuseIf_intake (refuseIf_intake (answered_intake (clearItems_intake _ i _ s)))))

/-- A record leaves the cells that wait (R175). -/
theorem runRecord_intake (x : Ctx) (r : RawRecord) (s : State) : (runRecord x r s).1.intake = s.intake := by
  unfold runRecord
  split
  · exact doRead_intake x _ _ _ s
  · exact doWrite_intake x _ _ _ s
  · exact pointRecord_intake x r s
  · exact doPut_intake x _ s
  · exact doGet_intake x _ s
  · exact actionRecord_intake (entryAt_intake fun e => refuseIf_intake (refuseIf_intake
      (answered_intake (Kept.oneEvent ((Kept.refl (b := true) s).spliceEvent e)).finish.intake)))
  · exact actionRecord_intake (entryAt_intake fun e => refuseIf_intake (refuseIf_intake
      (answered_intake ((Kept.refl s).cancelEvent e).event.intake)))
  · exact actionRecord_intake (doAlertOn_intake x _ s)
  · exact actionRecord_intake (entryAt_intake fun a => refuseIf_intake (refuseIf_intake rfl))
  · exact actionRecord_intake (entryAt_intake fun a => refuseIf_intake (refuseIf_intake
      (answered_intake ((Kept.refl s).endChannel a).finishFrom.intake)))
  · exact actionRecord_intake (entryAt_intake fun c => refuseIf_intake rfl)
  · exact actionRecord_intake (entryAt_intake fun c => refuseIf_intake rfl)
  · exact actionRecord_intake (doTakeLog_intake x s)
  · exact doClear_intake x _ _ _ s
  · exact actionRecord_intake (entryAt_intake fun _ => refuseIf_intake (answered_intake (restartPart_intake s)))
  · rfl

theorem runRecords_intake (ch : ChannelId) (cls : Fin 4) :
    ∀ (room : Nat) (l : List RawRecord) (s : State), (runRecords ch cls room l s).1.intake = s.intake
  | _, [], _ => rfl
  | room, r :: l, s =>
    ((runRecords_intake ch cls _ l _).trans (Kept.settleFresh (Kept.refl _)).intake).trans
      (runRecord_intake ⟨ch, cls, room⟩ r s)

theorem runRecords_length (ch : ChannelId) (cls : Fin 4) :
    ∀ (room : Nat) (l : List RawRecord) (s : State), (runRecords ch cls room l s).2.length = l.length
  | _, [], _ => rfl
  | _, _ :: l, _ => congrArg (· + 1) (runRecords_length ch cls _ l _)

/-! ### The response -/

theorem beBytes_two (n : Nat) : beBytes 2 n = [BitVec.ofNat 8 (n / 256), BitVec.ofNat 8 n] := by
  simp [beBytes]

theorem beBytes_one (n : Nat) : beBytes 1 n = [BitVec.ofNat 8 n] := by simp [beBytes]

/-- The channel after a response: one cell more in its queue, and the next continuity count (R176). -/
theorem respond_channel (h : ChannelId) (seq : Nat) (cls : Fin 4) (results : List Result) (s : State) :
    (respond h seq cls results s).channel h = { s.channel h with
      queue := (s.channel h).queue ++ [Cell.responseCell (s.channel h).respTag (s.channel h).continuity
        (responsePayload seq (s.channel h).overrun cls results)]
      continuity := (s.channel h).continuity + 1 } := State.modChannel_self _ _ _

/-- Byte 4 of a response payload counts the results, and byte 5 holds the class (section 10.7). -/
theorem responsePayload_head (seq overrun : Nat) (cls : Fin 4) (results : List Result) :
    ∃ a b c d tail, responsePayload seq overrun cls results =
      a :: b :: c :: d :: BitVec.ofNat 8 results.length :: BitVec.ofNat 8 cls.val :: tail := by
  rw [responsePayload, beBytes_two, beBytes_two, beBytes_one, beBytes_one]
  exact ⟨_, _, _, _, _, rfl⟩

/-- A cell that is not malformed is answered behind its records, by a result for each (R175, R176). -/
theorem executeCell_cons {h : ChannelId} {cls : Fin 4} {cell : Cell} {rest : List Intake} {s : State}
    (waits : s.intake = ⟨h, cls, cell⟩ :: rest) {p : ControlCell} (parsed : parseControl cell = some p) :
    executeCell s =
      respond h p.seq cls (runRecords h cls (234 - 3 * p.records.length) p.records { s with intake := rest }).2
        (runRecords h cls (234 - 3 * p.records.length) p.records { s with intake := rest }).1 := by
  simp only [executeCell, waits, parsed]

/-- The one record POINT sets the cursor, and makes no expiry (R175, R182). -/
theorem runRecords_point {h : ChannelId} {cls : Fin 4} {room i : Nat} {t : Table} {s : State} (inside : i < t.entries s) :
    runRecords h cls room [⟨2, t.code, i, []⟩] s =
      ((s.modChannel h (fun c => { c with cursor := some (t, i) })).codeAnswered .ok, [Code.ok.only]) := by
  have pointed : runRecord ⟨h, cls, room⟩ ⟨2, t.code, i, []⟩ s =
      (s.modChannel h (fun c => { c with cursor := some (t, i) }), Code.ok.only) := by
    simp only [runRecord, pointRecord, doPoint, ofCode_code, decide_eq_false (Nat.not_le.2 inside), refuseIf_false,
      decide_eq_false (not_not.2 rfl)]
  simp only [runRecords, pointed]
  rw [settleFresh_eq (by rfl)]
  rfl

/-- Settles O47: a malformed cell has no records; the POINT's only effect is the cursor; any other cell is answered
behind its records. -/
theorem controlCellIsAnswered : Obligations.ControlCellIsAnswered := by
  intro h cls cell rest s response twoBytes
  have command : exec .controlCellExecute s = .next (executeCell s) := rfl
  rw [command]
  refine ⟨fun none => ?_, fun waits => ⟨fun malformed => ?_, fun p t i parsed point inside => ?_, fun p parsed => ?_⟩⟩
  · simp only [executeCell, none]
  · have answered : executeCell s = respond h (malformedSeq cell) cls [] { s with intake := rest } := by
      simp only [executeCell, waits, malformed]
    rw [answered]
    simp only [respond, responsePayload, beBytes_two, beBytes_one]
    rfl
  · have inside' : i < t.entries { s with intake := rest } := by cases t <;> exact inside
    rw [executeCell_cons waits parsed, point, runRecords_point inside']
    simp only [respond, responsePayload, beBytes_two, beBytes_one, State.modChannel, State.codeAnswered, State.answered,
      State.channel, Tbl.get_put_self, Tbl.put_put]
    rfl
  · obtain ⟨u, results, e, taken, length⟩ : ∃ u results, executeCell s = respond h p.seq cls results u ∧
        u.intake = rest ∧ results.length = p.records.length :=
      ⟨_, _, executeCell_cons waits parsed, runRecords_intake h cls _ _ _, runRecords_length h cls _ _ _⟩
    obtain ⟨a, b, c, d, tail, head⟩ := responsePayload_head p.seq (u.channel h).overrun cls results
    rw [length] at head
    rw [e]
    refine ⟨_, Cell.responseCell (u.channel h).respTag (u.channel h).continuity
      (responsePayload p.seq (u.channel h).overrun cls results), rfl, taken, ?_, rfl, ?_, ?_⟩
    · rw [respond_channel]
      exact List.getLast?_concat
    · rw [respond_channel]
      rfl
    · rw [head]
      exact ⟨rfl, rfl⟩

end Sys2Proof.Machine
end

section
/-!
PROOFS. The output lanes: the window's start, and the cell that a position carries (R125 to R127, R131, R136, R137).
-/
namespace Sys2Proof.Machine
set_option Elab.async false

/-! ### Folds over a table -/

/-- A fold that changes each entry named once by its own value changes every named entry so, and no other. -/
theorem Tbl.get_foldl_put {α : Type} {n : Nat} (g : Fin n → α → α) (j : Fin n) :
    ∀ (l : List (Fin n)) (t : Tbl α n), l.Nodup →
      (l.foldl (fun t i => t.put i (g i (t.get i))) t).get j = if j ∈ l then g j (t.get j) else t.get j
  | [], _, _ => (if_neg List.not_mem_nil).symm
  | i :: l, t, distinct => by
    obtain ⟨apart, rest⟩ := List.nodup_cons.1 distinct
    rw [List.foldl_cons, Tbl.get_foldl_put g j l _ rest]
    by_cases h : j = i
    · subst h
      rw [if_neg apart, if_pos List.mem_cons_self, Tbl.get_put_self]
    · rw [Tbl.get_put_ne t h]
      simp only [List.mem_cons, h, false_or]

/-! ### The window -/

theorem routeOf_none {s : State} {v : SvcId} :
    s.routeOf v = none ↔ ∀ r, ¬((s.route r).state = .active ∧ (s.route r).service = some v) := by
  unfold State.routeOf
  rw [Tbl.find?_none]
  exact forall_congr' fun r => decide_eq_false_iff_not

/-- The ACTIVE route that names a service is the one that the lookup finds (R13). -/
theorem routeOf_eq {s : State} {v : SvcId} {r : RouteId} (unique : RoutesUnique s)
    (active : (s.route r).state = .active) (service : (s.route r).service = some v) : s.routeOf v = some r := by
  cases found : s.routeOf v with
  | none => exact absurd ⟨active, service⟩ (routeOf_none.1 found r)
  | some q =>
    obtain ⟨active', service'⟩ := routeOf_some found
    by_contra other
    obtain ⟨-, -, apart⟩ := unique q r (fun e => other (congrArg some e)) active' active
    exact apart ⟨by rw [service']; rfl, service'.trans service.symm⟩

theorem onLane_eq {s : State} {n : OutLaneId} {v : SvcId} {r : RouteId} (unique : RoutesUnique s)
    (active : (s.route r).state = .active) (service : (s.route r).service = some v) (lane : (s.route r).outLane = n) :
    onLane s n v = some r := by
  simp only [onLane, routeOf_eq unique active service, if_pos lane]

theorem onLane_none {s : State} {n : OutLaneId} {v : SvcId}
    (h : ∀ r, ¬((s.route r).state = .active ∧ (s.route r).service = some v ∧ (s.route r).outLane = n)) :
    onLane s n v = none := by
  unfold onLane
  split
  · next r found =>
    obtain ⟨active, service⟩ := routeOf_some found
    exact if_neg fun lane => h r ⟨active, service, lane⟩
  · rfl

/-- What a window's end makes of a service of the lane (R136). -/
def endedWindow (s : State) (n : OutLaneId) (v : SvcId) (x : Service) : Service :=
  if x.slot.isSome && (onLane s n v).isSome && x.clock.isSome then { x with shedLevel := nextShed x } else x

theorem updateShed_eq (n : OutLaneId) (s : State) (v : SvcId) :
    updateShed n s v = { s with services := s.services.put v (endedWindow s n v (s.svc v)) } := by
  have projected : (projection (s.svc v) s.now).isSome = (s.svc v).clock.isSome := Option.isSome_map
  unfold updateShed endedWindow
  dsimp only
  rw [projected]
  split
  · rfl
  · rw [State.svc, Tbl.put_get]

theorem foldl_updateShed (n : OutLaneId) (s : State) (l : List SvcId) (T : Tbl Service 64) :
    l.foldl (updateShed n) { s with services := T } =
      { s with services := l.foldl (fun t v => t.put v (endedWindow s n v (t.get v))) T } := by
  induction l generalizing T with
  | nil => rfl
  | cons v l ih => rw [List.foldl_cons, updateShed_eq, List.foldl_cons]; exact ih _

/-- The services after a window's end (R136). -/
theorem beginWindow_eq (n : OutLaneId) (s : State) :
    ∃ T : Tbl Service 64, (∀ v, T.get v = endedWindow s n v (s.svc v)) ∧
      beginWindow n s = { s with
        services := T
        outLanes := s.outLanes.put n { s.outLane n with
          windowK := (s.outLane n).capacity, remaining := Vector.ofFn (allotmentOf s n)
          held := Vector.replicate 64 false, reserveUsed := false, position := 0 } } := by
  have ended : (List.finRange 64).foldl (updateShed n) s =
      { s with services := (List.finRange 64).foldl (fun t v => t.put v (endedWindow s n v (t.get v))) s.services } :=
    foldl_updateShed n s (List.finRange 64) s.services
  have services (v : SvcId) : ((List.finRange 64).foldl (fun t v => t.put v (endedWindow s n v (t.get v)))
      s.services).get v = endedWindow s n v (s.svc v) := by
    rw [Tbl.get_foldl_put (endedWindow s n) v _ _ (List.nodup_finRange 64), if_pos (List.mem_finRange v)]
    rfl
  unfold beginWindow
  rw [ended]
  generalize (List.finRange 64).foldl (fun t v => t.put v (endedWindow s n v (t.get v))) s.services = T at services
  exact ⟨T, services, rfl⟩

/-- Settles O30: the fold over the services changes each by itself, and the lane is loaded from the routes. -/
theorem windowStartReloadsTheLane : Obligations.WindowStartReloadsTheLane := by
  intro n s due unique
  obtain ⟨T, services, begun⟩ := beginWindow_eq n { s with due := s.due.erase (.window n) }
  have step : exec (.windowStart n) s = .next (beginWindow n { s with due := s.due.erase (.window n) }) :=
    congrArg Host.Outcome.next (takeDue_of_mem due)
  refine ⟨_, Vector.ofFn (allotmentOf s n), step, ?_, fun v r active service lane => ?_, fun v noRoute => ⟨?_, ?_⟩,
    fun v idle => ?_, fun v r active service lane slot clock => ?_⟩
  · rw [begun]
    rfl
  · rw [Tbl.get_ofFn, allotmentOf, onLane_eq unique active service lane]
  · rw [Tbl.get_ofFn, allotmentOf, onLane_none noRoute]
  · rw [begun]
    refine (services v).trans ?_
    have noLane : onLane { s with due := s.due.erase (.window n) } n v = none := onLane_none noRoute
    rw [endedWindow, noLane, Option.isSome_none, Bool.and_false, Bool.false_and]
    rfl
  · rw [begun]
    refine (services v).trans (if_neg ?_)
    rcases idle with noSlot | noClock
    · rw [show (({ s with due := s.due.erase (.window n) } : State).svc v).slot = none from noSlot]
      simp
    · rw [show (({ s with due := s.due.erase (.window n) } : State).svc v).clock = none from noClock]
      simp
  · have lane_ : onLane { s with due := s.due.erase (.window n) } n v = some r := onLane_eq unique active service lane
    rw [begun]
    refine (services v).trans ((if_pos ?_).trans rfl)
    rw [lane_, Bool.and_eq_true, Bool.and_eq_true]
    exact ⟨⟨slot, rfl⟩, clock⟩

end Sys2Proof.Machine
end

section
/-!
PROOFS. The cell that a position carries (R126, R127, R129, R137): one cell on its lane, and which one when no service
may insert.
-/
namespace Sys2Proof.Machine
set_option Elab.async false

/-! ### One cell for each position (R126) -/

/-- The lane has taken a cell into its position from `s` to `t`; the other lane is as before. -/
structure Filled (n : OutLaneId) (s t : State) : Prop where
  out : ∃ c, (t.outLane n).out = some c
  position : (t.outLane n).position = (s.outLane n).position + 1
  capacity : (t.outLane n).capacity = (s.outLane n).capacity
  windowK : (t.outLane n).windowK = (s.outLane n).windowK
  others : ∀ m, m ≠ n → t.outLane m = s.outLane m

/-- The lane stands at the same position in `s` and `t`; the other lane is as before. -/
structure Waits (n : OutLaneId) (s t : State) : Prop where
  position : (t.outLane n).position = (s.outLane n).position
  capacity : (t.outLane n).capacity = (s.outLane n).capacity
  windowK : (t.outLane n).windowK = (s.outLane n).windowK
  others : ∀ m, m ≠ n → t.outLane m = s.outLane m

section
variable {n : OutLaneId} {s t u : State}

theorem waits_of_outLanes (h : t.outLanes = s.outLanes) : Waits n s t := by
  have lane (m : OutLaneId) : t.outLane m = s.outLane m := congrArg (Tbl.get · m) h
  exact ⟨by rw [lane], by rw [lane], by rw [lane], fun m _ => lane m⟩

theorem Waits.refl (n : OutLaneId) (s : State) : Waits n s s := waits_of_outLanes rfl

theorem Waits.trans (h : Waits n s t) (k : Waits n t u) : Waits n s u :=
  ⟨k.position.trans h.position, k.capacity.trans h.capacity, k.windowK.trans h.windowK,
    fun m hm => (k.others m hm).trans (h.others m hm)⟩

theorem Waits.filled (h : Waits n s t) (k : Filled n t u) : Filled n s u :=
  ⟨k.out, k.position.trans (congrArg (· + 1) h.position), k.capacity.trans h.capacity, k.windowK.trans h.windowK,
    fun m hm => (k.others m hm).trans (h.others m hm)⟩

theorem Filled.waits (h : Filled n s t) (k : u.outLanes = t.outLanes) : Filled n s u := by
  have lane (m : OutLaneId) : u.outLane m = t.outLane m := congrArg (Tbl.get · m) k
  exact ⟨lane n ▸ h.out, lane n ▸ h.position, lane n ▸ h.capacity, lane n ▸ h.windowK,
    fun m hm => (lane m).trans (h.others m hm)⟩

/-- A change of the lane that fills its position. -/
theorem modOutLane_filled {f : OutLane → OutLane} (out : ∃ c, (f (s.outLane n)).out = some c)
    (position : (f (s.outLane n)).position = (s.outLane n).position + 1)
    (capacity : (f (s.outLane n)).capacity = (s.outLane n).capacity)
    (windowK : (f (s.outLane n)).windowK = (s.outLane n).windowK) : Filled n s (s.modOutLane n f) := by
  refine ⟨?_, ?_, ?_, ?_, fun m hm => State.modOutLane_ne s f hm⟩ <;> rw [State.modOutLane_self] <;> assumption

theorem modOutLane_waits {f : OutLane → OutLane} (position : (f (s.outLane n)).position = (s.outLane n).position)
    (capacity : (f (s.outLane n)).capacity = (s.outLane n).capacity)
    (windowK : (f (s.outLane n)).windowK = (s.outLane n).windowK) : Waits n s (s.modOutLane n f) := by
  refine ⟨?_, ?_, ?_, fun m hm => State.modOutLane_ne s f hm⟩ <;> rw [State.modOutLane_self] <;> assumption

theorem place_filled (c : Cell) (s : State) : Filled n s (place n c s) := modOutLane_filled ⟨c, rfl⟩ rfl rfl rfl

theorem emitMedia_filled (r : RouteId) (c : Cell) (s : State) : Filled n s (emitMedia n r c s) :=
  (waits_of_outLanes rfl : Waits n s (s.modRoute r Route.emitted)).filled (place_filled _ _)

/-- A change of the lane after its cell that leaves the cell and the position. -/
theorem Filled.modOutLane {f : OutLane → OutLane} (h : Filled n s t) (out : (f (t.outLane n)).out = (t.outLane n).out)
    (k : Waits n t (t.modOutLane n f)) : Filled n s (t.modOutLane n f) :=
  ⟨by rw [State.modOutLane_self, out]; exact h.out, k.position.trans h.position, k.capacity.trans h.capacity,
    k.windowK.trans h.windowK, fun m hm => (k.others m hm).trans (h.others m hm)⟩

theorem emitResponse_filled {h : ChannelId} (queue : (s.channel h).queue ≠ []) (reserve : Bool) :
    Filled n s (emitResponse n h reserve s) := by
  unfold emitResponse
  split
  · next empty => exact absurd empty queue
  · next c q _ =>
    exact ((waits_of_outLanes rfl : Waits n s (s.modChannel h _)).filled (place_filled c _)).modOutLane rfl
      (modOutLane_waits rfl rfl rfl)

theorem responseChannel_queue {h : ChannelId} (found : responseChannel s n = some h) : (s.channel h).queue ≠ [] := by
  have candidate := List.find?_some found
  unfold isCandidate at candidate
  intro empty
  rw [empty] at candidate
  simp at candidate

theorem takeHead_kept (v : SvcId) (k : SlotId) (s : State) : Kept true s (takeHead v k s) :=
  Kept.settleRing k (Kept.refl s).rest

theorem takeHead_outLanes (v : SvcId) (k : SlotId) (s : State) : (takeHead v k s).outLanes = s.outLanes :=
  (takeHead_kept v k s).outLanes

theorem shedHead_outLanes (v : SvcId) (k : SlotId) (s : State) : (shedHead v k s).outLanes = s.outLanes := by
  unfold shedHead
  cases countedEvent s v k with
  | none => exact takeHead_outLanes v k s
  | some e => exact takeHead_outLanes v k _

theorem Filled.useAllotment (v : SvcId) (h : Filled n s t) : Filled n s (t.modOutLane n fun o =>
    { o with remaining := o.remaining.put v (o.remaining.get v - 1), insRot := some v }) :=
  h.modOutLane rfl (modOutLane_waits rfl rfl rfl)

theorem emitInserted_filled (v : SvcId) (r : RouteId) (k : SlotId) (c : RingCell) (s : State) :
    Filled n s (emitInserted n v r k c s) := by
  unfold emitInserted
  dsimp only
  refine Filled.useAllotment v ((waits_of_outLanes ((takeHead_outLanes v k _).trans ?_)).filled (emitMedia_filled r _ _))
  cases countedEvent s v k with
  | none => rfl
  | some e => rfl

/-- A walk over services that says whether it filled the position (R131 to R135). -/
def Judged (n : OutLaneId) (s : State) (p : State × Bool) : Prop :=
  (p.2 = true → Filled n s p.1) ∧ (p.2 = false → Waits n s p.1)

theorem Filled.judged (h : Filled n s t) : Judged n s (t, true) := ⟨fun _ => h, nofun⟩

theorem Waits.judged (h : Waits n s t) : Judged n s (t, false) := ⟨nofun, fun _ => h⟩

theorem Judged.after {p : State × Bool} (h : Judged n t p) (k : Waits n s t) : Judged n s p :=
  ⟨fun e => k.filled (h.1 e), fun e => k.trans (h.2 e)⟩

theorem modSvc_waits (v : SvcId) (f : Service → Service) : Waits n s (s.modSvc v f) := waits_of_outLanes rfl

theorem shedHead_waits (v : SvcId) (k : SlotId) (s : State) : Waits n s (shedHead v k s) :=
  waits_of_outLanes (shedHead_outLanes v k s)

theorem judgeService_judged (v : SvcId) (r : RouteId) :
    ∀ (fuel : Nat) (s : State), Judged n s (judgeService fuel n v r s)
  | 0, s => (Waits.refl n s).judged
  | fuel + 1, s => by
    unfold judgeService
    split
    · exact (Waits.refl n s).judged
    · next k c _ =>
      split
      · exact (emitInserted_filled v r k c s).judged
      · next proj _ =>
        refine Judged.after ?_ (modSvc_waits v fun x => { x with lateness := latenessOf x proj c })
        generalize s.modSvc v (fun x => { x with lateness := latenessOf x proj c }) = u
        dsimp only
        split
        · exact (modOutLane_waits rfl rfl rfl).judged
        · split
          · exact ((judgeService_judged v r fuel _).after (shedHead_waits v k _)).after (modSvc_waits v _)
          · exact (emitInserted_filled v r k c _).judged.after (modSvc_waits v _)

theorem insertWalk_judged : ∀ (l : List SvcId) (s : State), Judged n s (insertWalk n l s)
  | [], s => (Waits.refl n s).judged
  | v :: l, s => by
    unfold insertWalk
    split
    · exact insertWalk_judged l s
    · next r _ =>
      have judged := judgeService_judged (n := n) v r 9 s
      split
      · next t e => exact e ▸ judged
      · next t e =>
        rw [e] at judged
        exact (insertWalk_judged l t).after (judged.2 rfl)

theorem otherCell_filled (s : State) : Filled n s (otherCell n s) := by
  unfold otherCell
  split
  · exact (modOutLane_waits rfl rfl rfl).filled (emitMedia_filled _ _ _)
  · split
    · next h found => exact emitResponse_filled (responseChannel_queue found) false
    · exact place_filled _ s

theorem insertOrOther_filled (s : State) : Filled n s (insertOrOther n s) := by
  have walked := insertWalk_judged (n := n) (cyclicAfter 64 (s.outLane n).insRot) s
  unfold insertOrOther
  split
  · next t e => rw [e] at walked; exact walked.1 rfl
  · next t e => rw [e] at walked; exact (walked.2 rfl).filled (otherCell_filled t)

theorem fillPosition_filled (s : State) : Filled n s (fillPosition n s) := by
  unfold fillPosition
  split
  · exact insertOrOther_filled s
  · split
    · next h found => exact emitResponse_filled (responseChannel_queue found) true
    · exact insertOrOther_filled s

end

theorem exec_outputPosition_due {n : OutLaneId} {s : State} (due : positionDue s n = true) :
    exec (.outputPosition n) s = .next (finish (fillPosition n s)) :=
  congrArg Host.Outcome.next (if_pos due)

/-- Settles O31: whichever step of R126 it is that fills the position, it places one cell. -/
theorem positionIsNeverEmpty : Obligations.PositionIsNeverEmpty := by
  intro n s
  refine ⟨fun notDue => congrArg Host.Outcome.next (if_neg (ne_true_of_eq_false notDue)), fun due => ?_⟩
  have kept : (finish (fillPosition n s)).outLanes = (fillPosition n s).outLanes :=
    ((Kept.refl (b := true) (fillPosition n s)).finish).outLanes
  obtain ⟨⟨c, out⟩, position, capacity, windowK, others⟩ := (fillPosition_filled (n := n) s).waits kept
  exact ⟨_, c, exec_outputPosition_due due, out, position, capacity, windowK, others⟩

/-! ### Which cell (R126, R127) -/

/-- A service that may not insert, or has no head, is passed over in the walk of step 2 (R130). -/
def PassedOver (s : State) (n : OutLaneId) (v : SvcId) : Prop := mayInsert s n v = none ∨ headOf s v = none

theorem passedOver_of {s : State} {n : OutLaneId} {v : SvcId}
    (h : (s.outLane n).remaining.get v = 0 ∨ (s.outLane n).held.get v = true ∨ (s.svc v).slot = none) :
    PassedOver s n v := by
  rcases h with spent | held | noSlot
  · exact .inl (if_pos (.inl spent))
  · exact .inl (if_pos (.inr held))
  · exact .inr (by simp only [headOf, noSlot])

theorem insertWalk_passedOver {n : OutLaneId} {s : State} :
    ∀ {l : List SvcId}, (∀ v ∈ l, PassedOver s n v) → insertWalk n l s = (s, false)
  | [], _ => rfl
  | v :: l, h => by
    obtain ⟨hv, hl⟩ := List.forall_mem_cons.1 h
    unfold insertWalk
    split
    · exact insertWalk_passedOver hl
    · next r admitted =>
      have noHead : headOf s v = none := hv.resolve_left (admitted ▸ Option.some_ne_none r)
      simp only [judgeService, noHead]
      exact insertWalk_passedOver hl

theorem insertOrOther_passedOver {n : OutLaneId} {s : State} (h : ∀ v, PassedOver s n v) :
    insertOrOther n s = otherCell n s := by
  simp only [insertOrOther, insertWalk_passedOver fun v _ => h v]

theorem isCandidate_iff {s : State} {n : OutLaneId} {h : ChannelId} :
    isCandidate s n h = true ↔
      (s.channel h).enabled = true ∧ (s.channel h).respLane = n ∧ (s.channel h).queue ≠ [] := by
  simp [isCandidate, and_assoc]

theorem responseChannel_none {s : State} {n : OutLaneId}
    (h : ∀ g, ¬((s.channel g).enabled = true ∧ (s.channel g).respLane = n ∧ (s.channel g).queue ≠ [])) :
    responseChannel s n = none :=
  List.find?_eq_none.2 fun g _ => fun c => h g (isCandidate_iff.1 c)

/-- The place of a channel in the rotation after the last one served (R127). -/
def responseTurn (last : Option ChannelId) (h : ChannelId) : Nat :=
  match last with
  | some l => (h.val + 3 - l.val) % 4
  | none => h.val

/-- The rotation goes through the channels by their turns (R127). -/
theorem cyclicAfter_turns : ∀ last : Option ChannelId,
    (cyclicAfter 4 last).Pairwise (fun g h => responseTurn last g < responseTurn last h) ∧ ∀ h, h ∈ cyclicAfter 4 last := by
  decide

/-- The channel served is the candidate whose turn is first (R127). -/
theorem responseChannel_eq {s : State} {n : OutLaneId} {h : ChannelId} (candidate : isCandidate s n h = true)
    (first : ∀ g, g ≠ h → isCandidate s n g = true →
      responseTurn (s.outLane n).respRot h < responseTurn (s.outLane n).respRot g) : responseChannel s n = some h := by
  obtain ⟨ordered, all⟩ := cyclicAfter_turns (s.outLane n).respRot
  obtain ⟨before, after, split⟩ := List.append_of_mem (all h)
  rw [split, List.pairwise_append] at ordered
  obtain ⟨-, -, earlier⟩ := ordered
  refine List.find?_eq_some_iff_append.2 ⟨candidate, before, after, split, fun g hg => ?_⟩
  have lower := earlier g hg h List.mem_cons_self
  rw [Bool.not_eq_true', Bool.eq_false_iff]
  intro c
  have other : g ≠ h := fun e => absurd lower (e ▸ lt_irrefl _)
  exact absurd (first g other c) (Nat.lt_asymm lower)

theorem emitResponse_eq {n : OutLaneId} {h : ChannelId} {reserve : Bool} {s : State} {c : Cell} {rest : List Cell}
    (queue : (s.channel h).queue = c :: rest) :
    emitResponse n h reserve s = { s with
      channels := s.channels.put h { s.channel h with queue := rest }
      outLanes := s.outLanes.put n { s.outLane n with
        out := some c, position := (s.outLane n).position + 1, respRot := some h
        reserveUsed := (s.outLane n).reserveUsed || reserve } } := by
  unfold emitResponse
  rw [queue]
  dsimp only
  unfold place
  rw [modOutLane_modOutLane]
  rfl

theorem otherCell_network {n : OutLaneId} {s : State} {r : RouteId} {c : Cell} {rest : List FifoEntry}
    (fifo : (s.outLane n).fifo = ⟨r, c⟩ :: rest) :
    otherCell n s = { s with
      routes := s.routes.put r (s.route r).emitted
      outLanes := s.outLanes.put n { s.outLane n with
        fifo := rest, position := (s.outLane n).position + 1, out := some (retag (s.route r) c) } } := by
  have emitted (f : OutLane → OutLane) : emitMedia n r c (s.modOutLane n f) =
      ((s.modOutLane n f).modOutLane n fun o =>
        { o with out := some (retag (s.route r) c), position := o.position + 1 }).modRoute r Route.emitted := rfl
  unfold otherCell
  rw [fifo]
  dsimp only
  rw [emitted, modOutLane_modOutLane]
  rfl

theorem otherCell_filler {n : OutLaneId} {s : State} (fifo : (s.outLane n).fifo = [])
    (idle : responseChannel s n = none) : otherCell n s = place n Cell.fillerCell s := by
  simp only [otherCell, fifo, idle]

theorem otherCell_response {n : OutLaneId} {s : State} {h : ChannelId} (fifo : (s.outLane n).fifo = [])
    (served : responseChannel s n = some h) : otherCell n s = emitResponse n h false s := by
  simp only [otherCell, fifo, served]

/-- Settles O32: the choice of R126 in its order, with nothing to insert. -/
theorem positionCarriesWhatIsFirst : Obligations.PositionCarriesWhatIsFirst := by
  intro n s settled due candidate turn noInsert
  have settledAfter (c : Tbl Channel 4) (r : Tbl Route 256) (o : Tbl OutLane 2) :
      finish { s with channels := c, routes := r, outLanes := o } = { s with channels := c, routes := r, outLanes := o } :=
    finish_eq settled
  have turn_eq : turn = responseTurn (s.outLane n).respRot := by
    funext h
    show (match (s.outLane n).respRot with | some l => _ | none => _) = _
    cases (s.outLane n).respRot <;> rfl
  have walked (idle : noInsert) : insertOrOther n s = otherCell n s :=
    insertOrOther_passedOver fun v => passedOver_of (idle v)
  have filling (used : (s.outLane n).reserveUsed = true ∨ ∀ h, ¬candidate h) (idle : noInsert) :
      fillPosition n s = otherCell n s := by
    unfold fillPosition
    split
    · exact walked idle
    · next free =>
      rw [responseChannel_none (used.resolve_left free)]
      exact walked idle
  rw [exec_outputPosition_due due]
  refine ⟨?_, fun used idle r c rest fifo => ?_, fun noneWait idle fifo => ?_⟩
  · intro h c rest isCand queue first emitted
    have served : responseChannel s n = some h :=
      responseChannel_eq (isCandidate_iff.2 isCand) fun g other cand => turn_eq ▸ first g other (isCandidate_iff.1 cand)
    refine ⟨fun free => ?_, fun used idle fifo => ?_⟩
    · have filled : fillPosition n s = emitResponse n h true s := by
        simp only [fillPosition, free, Bool.false_eq_true, if_false, served]
      rw [filled, emitResponse_eq queue, Bool.or_true]
      exact congrArg Host.Outcome.next (settledAfter _ s.routes _)
    · rw [filling (.inl used) idle, otherCell_response fifo served, emitResponse_eq queue, used, Bool.true_or]
      exact congrArg Host.Outcome.next (settledAfter _ s.routes _)
  · rw [filling used idle, otherCell_network fifo]
    exact congrArg Host.Outcome.next (settledAfter s.channels _ _)
  · rw [filling (.inr noneWait) idle, otherCell_filler fifo (responseChannel_none noneWait)]
    exact congrArg Host.Outcome.next (settledAfter s.channels s.routes _)

end Sys2Proof.Machine
end

section
/-!
PROOFS. Rings with one reader or none, and the head that a service inserts, sheds or is held for (R100, R104, R132 to
R135).
-/
namespace Sys2Proof.Machine
set_option Elab.async false

/-! ### Rings with few readers (R100, R101, R104) -/

section
variable {k : SlotId} {s : State}

theorem Slot.sought_still (x : Slot) {r : Reader} (h : r.seek = .none) : x.sought r = r := if_pos h

/-- Without a seeking reader nothing is passed (R101). -/
theorem seekReaders_still (still : ∀ r ∈ (s.slot k).readers, r.seek = .none) : seekReaders k s = s := by
  have noBase (l : List Reader) (hl : ∀ r ∈ l, r.seek = .none) : l.foldl (takeBase (s.slot k)) s = s := by
    induction l with
    | nil => rfl
    | cons r l ih =>
      obtain ⟨hr, hl⟩ := List.forall_mem_cons.1 hl
      have taken : takeBase (s.slot k) s r = s := if_neg (by rw [hr]; decide)
      rw [List.foldl_cons, taken]
      exact ih hl
  have sought : (s.slot k).readers.map (s.slot k).sought = (s.slot k).readers :=
    (List.map_congr_left fun r hr => (s.slot k).sought_still (still r hr)).trans (List.map_id _)
  unfold seekReaders
  dsimp only
  rw [noBase _ still]
  exact modSlot_eq_self (by rw [sought])

/-- One reader does not slip (R104). -/
theorem slipReaders_few (few : (s.slot k).readers.length < 2) : slipReaders k s = s := by
  have notDue : (s.slot k).slipDue = false := by
    unfold Slot.slipDue
    rw [decide_eq_false (Nat.not_le.2 few), Bool.and_false, Bool.false_and]
  unfold slipReaders
  dsimp only
  rw [notDue]
  rfl

theorem Slot.moveTail_noReaders {x : Slot} (h : x.readers = []) : x.moveTail = x := by
  have slow : x.slowOff = 0 := by simp [Slot.slowOff, h]
  simp [Slot.moveTail, slow]

theorem Slot.moveTail_one {x : Slot} {r : Reader} (h : x.readers = [r]) :
    x.moveTail = { x with tail := r.pos, ring := x.ring.drop (x.off r.pos) } := by
  have slow : x.slowOff = x.off r.pos := by simp [Slot.slowOff, h]
  have tail : x.tail + BitVec.ofNat 32 (x.off r.pos) = r.pos := by
    rw [Slot.off, BitVec.ofNat_toNat, BitVec.setWidth_eq, add_sub_cancel]
  rw [Slot.moveTail, slow, tail]

/-- A ring without readers stays as it is (R100). -/
theorem settleRing_noReaders (h : (s.slot k).readers = []) : settleRing k s = s := by
  have still : seekReaders k s = s := seekReaders_still fun r hr => absurd (h ▸ hr) List.not_mem_nil
  have moved : s.modSlot k Slot.moveTail = s := modSlot_eq_self (Slot.moveTail_noReaders h)
  unfold settleRing
  dsimp only
  rw [still, moved, slipReaders_few (by rw [h]; decide), still, moved]

/-- The tail follows the one reader of a ring (R100). -/
theorem settleRing_one {v : SvcId} {p : Seq} (h : (s.slot k).readers = [⟨v, p, .none⟩]) :
    settleRing k s = s.modSlot k fun x => { x with tail := p, ring := x.ring.drop (x.off p) } := by
  have moved : s.modSlot k Slot.moveTail = s.modSlot k fun x => { x with tail := p, ring := x.ring.drop (x.off p) } := by
    unfold State.modSlot
    rw [Slot.moveTail_one h]
  have still : seekReaders k s = s := seekReaders_still (by rw [h]; simp)
  unfold settleRing
  dsimp only
  rw [still, moved]
  have readers : ((s.modSlot k fun x => { x with tail := p, ring := x.ring.drop (x.off p) }).slot k).readers =
      [⟨v, p, .none⟩] := by rw [State.modSlot_self]; exact h
  generalize settled : s.modSlot k (fun x => { x with tail := p, ring := x.ring.drop (x.off p) }) = t at readers
  rw [slipReaders_few (by rw [readers]; exact Nat.lt_succ_self 1), seekReaders_still (by rw [readers]; simp)]
  refine modSlot_eq_self ?_
  have tail : (t.slot k).tail = p := by rw [← settled, State.modSlot_self]
  rw [Slot.moveTail_one readers]
  simp [Slot.off, ← tail]

end

/-! ### The head of a ring with one reader (R100) -/

section
variable {v : SvcId} {k : SlotId} {s : State}

theorem Slot.readerOf_one {x : Slot} {r : Reader} (h : x.readers = [r]) : x.readerOf r.svc = some r := by
  simp [Slot.readerOf, h]

theorem headOf_one (slot : (s.svc v).slot = some k) (reader : (s.slot k).readers = [⟨v, (s.slot k).tail, .none⟩]) :
    headOf s v = (s.slot k).ring.head?.map fun c => (k, c) := by
  have entry : (s.slot k).readerOf v = some ⟨v, (s.slot k).tail, .none⟩ := Slot.readerOf_one reader
  simp [headOf, slot, entry, Slot.cellAt, Slot.off, List.head?_eq_getElem?]

/-- The one reader takes the head, and the tail moves on with it (R100). -/
theorem takeHead_one {c : RingCell} {ring : List RingCell}
    (reader : (s.slot k).readers = [⟨v, (s.slot k).tail, .none⟩]) (head : (s.slot k).ring = c :: ring) :
    takeHead v k s = { s with slots := s.slots.put k { s.slot k with
      ring := ring, tail := (s.slot k).tail + 1, readers := [⟨v, (s.slot k).tail + 1, .none⟩] } } := by
  have off (x : Slot) : x.off (x.tail + 1) = 1 := by
    rw [Slot.off, add_sub_cancel_left]
    rfl
  have moved : (s.slot k).readers.map (fun r => if r.svc = v then { r with pos := r.pos + 1 } else r) =
      [⟨v, (s.slot k).tail + 1, .none⟩] := by simp [reader]
  have next : ((s.modSlot k fun x =>
      { x with readers := x.readers.map (fun r => if r.svc = v then { r with pos := r.pos + 1 } else r) }).slot
        k).readers = [⟨v, (s.slot k).tail + 1, .none⟩] := by
    rw [State.modSlot_self]
    exact moved
  unfold takeHead
  rw [settleRing_one next, modSlot_modSlot]
  have taken : (s.slot k).ring.drop ((s.slot k).off ((s.slot k).tail + 1)) = ring := by rw [off, head]; rfl
  unfold State.modSlot
  dsimp only [Function.comp]
  rw [moved]
  exact congrArg (fun l => ({ s with slots := s.slots.put k { s.slot k with
    ring := l, tail := (s.slot k).tail + 1, readers := [⟨v, (s.slot k).tail + 1, .none⟩] } } : State)) taken

end

end Sys2Proof.Machine
end

section
/-!
PROOFS. The one service that may insert: its head emitted, shed, or held (R130 to R135).
-/
namespace Sys2Proof.Machine
set_option Elab.async false

/-! ### The walk with one service that may insert (R131) -/

theorem mem_cyclicAfter {n : Nat} (last : Option (Fin n)) (i : Fin n) : i ∈ cyclicAfter n last := by
  cases last with
  | none => exact List.mem_finRange i
  | some l =>
    rcases Nat.lt_or_ge l.val i.val with later | earlier
    · exact List.mem_append_left _ (List.mem_filter.2 ⟨List.mem_finRange i, decide_eq_true later⟩)
    · exact List.mem_append_right _ (List.mem_filter.2 ⟨List.mem_finRange i, decide_eq_true earlier⟩)

theorem insertWalk_append {n : OutLaneId} {s : State} (rest : List SvcId) :
    ∀ {l : List SvcId}, (∀ v ∈ l, PassedOver s n v) → insertWalk n (l ++ rest) s = insertWalk n rest s
  | [], _ => rfl
  | v :: l, h => by
    obtain ⟨hv, hl⟩ := List.forall_mem_cons.1 h
    rw [List.cons_append, insertWalk]
    split
    · exact insertWalk_append rest hl
    · next r admitted =>
      have noHead : headOf s v = none := hv.resolve_left (admitted ▸ Option.some_ne_none r)
      simp only [judgeService, noHead]
      exact insertWalk_append rest hl

section
variable {n : OutLaneId} {v : SvcId} {r : RouteId} {s t : State}

/-- The one service that may insert fills the position (R131). -/
theorem insertOrOther_emitted (others : ∀ w, w ≠ v → PassedOver s n w) (admitted : mayInsert s n v = some r)
    (judged : judgeService 9 n v r s = (t, true)) : insertOrOther n s = t := by
  obtain ⟨before, after, split, apart⟩ := List.eq_append_cons_of_mem (mem_cyclicAfter (s.outLane n).insRot v)
  unfold insertOrOther
  rw [split, insertWalk_append _ fun w hw => others w fun e => apart (e ▸ hw), insertWalk]
  simp only [admitted, judged]

/-- The one service that may insert leaves the position to the steps that follow (R131). -/
theorem insertOrOther_passed (others : ∀ w, w ≠ v → PassedOver s n w) (admitted : mayInsert s n v = some r)
    (judged : judgeService 9 n v r s = (t, false)) (idle : ∀ w, PassedOver t n w) :
    insertOrOther n s = otherCell n t := by
  obtain ⟨before, after, split, apart⟩ := List.eq_append_cons_of_mem (mem_cyclicAfter (s.outLane n).insRot v)
  unfold insertOrOther
  rw [split, insertWalk_append _ fun w hw => others w fun e => apart (e ▸ hw), insertWalk]
  simp only [admitted, judged, insertWalk_passedOver fun w _ => idle w]

theorem fillPosition_noResponse (idle : responseChannel s n = none) : fillPosition n s = insertOrOther n s := by
  unfold fillPosition
  rw [idle]
  exact ite_self _

theorem mayInsert_eq (left : (s.outLane n).remaining.get v ≠ 0) (free : (s.outLane n).held.get v = false)
    (route : onLane s n v = some r) (lane : (s.route r).outLane = n) (none : ∀ x ∈ (s.outLane n).fifo, x.route ≠ r) :
    mayInsert s n v = some r := by
  have notQueued : queued s r = false := by
    rw [queued, lane, List.any_eq_false]
    exact fun x hx => mt of_decide_eq_true (none x hx)
  unfold mayInsert
  rw [if_neg (by rw [free]; exact not_or.2 ⟨left, Bool.false_ne_true⟩), route]
  dsimp only
  rw [notQueued]
  rfl

end

/-! ### The head emitted or shed (R134, R135) -/

/-- The events with `f` applied to the ACTIVE ad event whose slot the service reads, if there is one (R58). -/
def countedEvents (s : State) (v : SvcId) (k : SlotId) (f : Event → Event) : Tbl Event 256 :=
  match countedEvent s v k with
  | some e => s.events.put e (f (s.event e))
  | none => s.events

/-- The slots after the one reader of a ring has taken its head (R100). -/
def takenSlots (s : State) (v : SvcId) (k : SlotId) (ring : List RingCell) : Tbl Slot 16 :=
  s.slots.put k { s.slot k with
    ring := ring, tail := (s.slot k).tail + 1, readers := [⟨v, (s.slot k).tail + 1, .none⟩] }

section
variable {n : OutLaneId} {v : SvcId} {r : RouteId} {k : SlotId} {c : RingCell} {ring : List RingCell} {s : State}

theorem emitMedia_takeHead {cell : Cell} {g : Service → Service} {f : OutLane → OutLane}
    (reader : (s.slot k).readers = [⟨v, (s.slot k).tail, .none⟩]) (head : (s.slot k).ring = c :: ring) :
    (emitMedia n r cell (takeHead v k (s.modSvc v g))).modOutLane n f = { s with
      services := s.services.put v (g (s.svc v)), slots := takenSlots s v k ring
      routes := s.routes.put r (s.route r).emitted
      outLanes := s.outLanes.put n (f { s.outLane n with
        out := some (retag (s.route r) cell), position := (s.outLane n).position + 1 }) } := by
  rw [takeHead_one (s := s.modSvc v g) reader head]
  unfold emitMedia place
  rw [modOutLane_modOutLane]
  rfl

/-- An inserted head leaves rebased, and the reader moves on (R135). -/
theorem emitInserted_eq (reader : (s.slot k).readers = [⟨v, (s.slot k).tail, .none⟩])
    (head : (s.slot k).ring = c :: ring) :
    emitInserted n v r k c s = { s with
      services := s.services.put v { (s.svc v).countStrays (c.rs.strays + c.ps.strays) with insertMark := false }
      events := countedEvents s v k fun y => { y with inserted := sat32 y.inserted }
      slots := takenSlots s v k ring
      routes := s.routes.put r (s.route r).emitted
      outLanes := s.outLanes.put n { s.outLane n with
        position := (s.outLane n).position + 1, insRot := some v
        remaining := (s.outLane n).remaining.put v ((s.outLane n).remaining.get v - 1)
        out := some (retag (s.route r) { c.cell with
          rs := c.rs.output (s.svc v).base, ps := c.ps.output (s.svc v).base
          discontinuity := c.cell.discontinuity || (s.svc v).insertMark }) } } := by
  unfold emitInserted countedEvents
  cases countedEvent s v k with
  | none => exact emitMedia_takeHead (s := s) reader head
  | some e => exact emitMedia_takeHead (s := s.modEvent e _) reader head

theorem shedHead_eq (reader : (s.slot k).readers = [⟨v, (s.slot k).tail, .none⟩])
    (head : (s.slot k).ring = c :: ring) :
    shedHead v k s = { s with
      events := countedEvents s v k fun y => { y with shed := sat32 y.shed }, slots := takenSlots s v k ring } := by
  unfold shedHead countedEvents
  cases countedEvent s v k with
  | none => exact takeHead_one (s := s) reader head
  | some e => exact takeHead_one (s := s.modEvent e _) reader head

end

end Sys2Proof.Machine
end

section
/-!
PROOFS. What a position carries when one service may insert (R130 to R135).
-/
namespace Sys2Proof.Machine
set_option Elab.async false

/-- The state after a head has been judged against the clock model: the lateness is stored, and the pattern counter
advances (R132, R134). -/
def State.judged (s : State) (v : SvcId) (late : Int) : State :=
  { s with services := s.services.put v { s.svc v with
      lateness := late, shedPattern := ((s.svc v).shedPattern + 1) % 8 } }

section
variable {n : OutLaneId} {v : SvcId} {r : RouteId} {k : SlotId} {c : RingCell} {s : State} {proj : Stamp} {late : Int}
  {fuel : Nat}

theorem judgeService_noHead (noHead : headOf s v = none) : judgeService fuel n v r s = (s, false) := by
  cases fuel with
  | zero => rfl
  | succ fuel => simp only [judgeService, noHead]

theorem judgeService_noClock (head : headOf s v = some (k, c)) (noClock : projection (s.svc v) s.now = none) :
    judgeService (fuel + 1) n v r s = (emitInserted n v r k c s, true) := by
  simp only [judgeService, head, noClock]

theorem modSvc_lateness_pattern (s : State) (v : SvcId) (late : Int) :
    (s.modSvc v fun x => { x with lateness := late }).modSvc v Service.stepPattern = s.judged v late :=
  modSvc_modSvc s v _ _

theorem modSvc_lateness (lateness : latenessOf (s.svc v) proj c = late) :
    (s.modSvc v fun x => { x with lateness := latenessOf x proj c }) =
      { s with services := s.services.put v { s.svc v with lateness := late } } :=
  congrArg (fun y => ({ s with services := s.services.put v { s.svc v with lateness := y } } : State)) lateness

theorem modSvc_lateness_judged (lateness : latenessOf (s.svc v) proj c = late) :
    (s.modSvc v fun x => { x with lateness := latenessOf x proj c }).modSvc v Service.stepPattern = s.judged v late :=
  (congrArg (State.modSvc · v Service.stepPattern) (modSvc_lateness lateness)).trans (modSvc_lateness_pattern s v late)

theorem judgeService_emits (head : headOf s v = some (k, c)) (clock : projection (s.svc v) s.now = some proj)
    (lateness : latenessOf (s.svc v) proj c = late) (due : -late ≤ ((s.svc v).cfg.leadLimit : Int))
    (kept : c.cell.essential = true ∨ (s.svc v).shedLevel ≤ (s.svc v).shedPattern) :
    judgeService (fuel + 1) n v r s = (emitInserted n v r k c (s.judged v late), true) := by
  unfold judgeService
  rw [head]
  dsimp only
  rw [clock]
  dsimp only
  rw [State.modSvc_self, if_neg (by rw [lateness]; exact not_lt.2 due), if_neg]
  · rw [modSvc_lateness_judged lateness]
  · rcases kept with essential | above
    · simp [essential]
    · simp [Nat.not_lt.2 above]

theorem judgeService_sheds (head : headOf s v = some (k, c)) (clock : projection (s.svc v) s.now = some proj)
    (lateness : latenessOf (s.svc v) proj c = late) (due : -late ≤ ((s.svc v).cfg.leadLimit : Int))
    (inessential : c.cell.essential = false) (below : (s.svc v).shedPattern < (s.svc v).shedLevel) :
    judgeService (fuel + 1) n v r s = judgeService fuel n v r (shedHead v k (s.judged v late)) := by
  rw [judgeService, head]
  dsimp only
  rw [clock]
  dsimp only
  rw [State.modSvc_self, if_neg (by rw [lateness]; exact not_lt.2 due), if_pos (by simp [inessential, below]),
    modSvc_lateness_judged lateness]

theorem judgeService_holds (head : headOf s v = some (k, c)) (clock : projection (s.svc v) s.now = some proj)
    (lateness : latenessOf (s.svc v) proj c = late) (early : ((s.svc v).cfg.leadLimit : Int) < -late) :
    judgeService (fuel + 1) n v r s = ({ s with
      services := s.services.put v { s.svc v with lateness := late }
      outLanes := s.outLanes.put n { s.outLane n with held := (s.outLane n).held.put v true } }, false) := by
  unfold judgeService
  rw [head]
  dsimp only
  rw [clock]
  dsimp only
  rw [State.modSvc_self, if_pos (by rw [lateness]; exact early), modSvc_lateness lateness]
  rfl

/-- A service stays passed over when neither the lane's allotments and holds nor its slot change for it (R130). -/
theorem passedOver_congr {t : State} {w : SvcId}
    (idle : (s.outLane n).remaining.get w = 0 ∨ (s.outLane n).held.get w = true ∨ (s.svc w).slot = none)
    (remaining : (t.outLane n).remaining.get w = (s.outLane n).remaining.get w)
    (held : (t.outLane n).held.get w = (s.outLane n).held.get w) (slot : (t.svc w).slot = (s.svc w).slot) :
    PassedOver t n w :=
  passedOver_of (by rwa [remaining, held, slot])

end

theorem strays_eq (x : RingStamp) : x.strays = if x = .stray then 1 else 0 := by
  cases x <;> rfl

theorem countStrays_eq (x : Service) (i : Nat) :
    x.countStrays i = { x with
      strayCount := if i = 0 then x.strayCount else min (x.strayCount + i) 65535
      straySeen := x.straySeen || decide (i ≠ 0) } := by
  unfold Service.countStrays
  split
  · next none => simp [none]
  · next some => simp [some]

theorem projection_eq (x : Service) (now : Ms) :
    projection x now = x.clock.map (fun m =>
      m.rs + BitVec.ofNat 36 (if x.held then 10485760000 else (now - m.ms).toNat * 10000)) := by
  have span (m : ClockModel) : freeRun m x.held now * 10000 =
      if x.held then 10485760000 else (now - m.ms).toNat * 10000 := by
    unfold freeRun
    split
    · rfl
    · rfl
  exact congrArg (Option.map · x.clock) (funext fun m => congrArg (fun i => m.rs + BitVec.ofNat 36 i) (span m))

theorem noResponse {s : State} {n : OutLaneId}
    (h : ∀ g, (s.channel g).enabled = false ∨ (s.channel g).respLane ≠ n ∨ (s.channel g).queue = []) :
    responseChannel s n = none := by
  refine responseChannel_none fun g ⟨enabled, lane, queue⟩ => ?_
  rcases h g with off | other | empty
  · exact Bool.false_ne_true (off.symm.trans enabled)
  · exact other lane
  · exact queue empty

theorem countedEvents_eq (s : State) (v : SvcId) (k : SlotId) (f : Event → Event) :
    countedEvents s v k f = match (s.slot k).owner with
      | some (.event e) =>
        if (s.event e).state = .active ∧ (s.event e).service = v then s.events.put e (f (s.event e)) else s.events
      | _ => s.events := by
  unfold countedEvents countedEvent
  cases (s.slot k).owner with
  | none => rfl
  | some o =>
    cases o with
    | event e =>
      by_cases h : (s.event e).state = .active ∧ (s.event e).service = v
      · simp only [if_pos h]
      · simp only [if_neg h]
    | loss w => rfl
    | alert a => rfl

/-- Settles O33: the head of the one reader is judged and leaves, alone or for filler. -/
theorem insertedCellIsRebased : Obligations.InsertedCellIsRebased := by
  intro n v r k c ring s old late due noResp others left free unique active service lane notQueued oldEq slot reader
    head projected lateEq lead stamp strays judged counted taken
  subst oldEq
  have idle (w : SvcId) (hw : w ≠ v) : PassedOver s n w := passedOver_of (others w hw)
  have admitted : mayInsert s n v = some r :=
    mayInsert_eq left free (onLane_eq unique active service lane) lane notQueued
  have ringHead : headOf s v = some (k, c) := by rw [headOf_one slot reader, head]; rfl
  have responses : responseChannel s n = none := noResponse noResp
  have countedEq (f : Event → Event) : counted f = countedEvents s v k f := (countedEvents_eq s v k f).symm
  have straysEq : strays = c.rs.strays + c.ps.strays := by rw [strays_eq, strays_eq]
  have projectedEq : projection (s.svc v) s.now = projected := projection_eq _ _
  have clocked {m : ClockModel} (clock : (s.svc v).clock = some m) : ∃ p, projected = some p ∧
      latenessOf (s.svc v) p c = late := by
    refine ⟨_, congrArg (Option.map _) clock, ?_⟩
    rw [lateEq, show projected = some _ from congrArg (Option.map _) clock]
    unfold latenessOf
    cases c.rs <;> rfl
  have inserted (u : State) (services : u = { s with services := s.services.put v judged })
      (walked : judgeService 9 n v r s = (emitInserted n v r k c u, true)) :
      ∃ t, exec (.outputPosition n) s = .next t ∧ Followed
        { s with
          services := s.services.put v { judged with
            insertMark := false
            strayCount := if strays = 0 then (s.svc v).strayCount else min ((s.svc v).strayCount + strays) 65535
            straySeen := (s.svc v).straySeen || decide (strays ≠ 0) }
          events := counted (fun x => { x with inserted := min (x.inserted + 1) 4294967295 })
          slots := taken
          routes := s.routes.put r { s.route r with
            continuity := (s.route r).continuity + 1, restartMark := false }
          outLanes := s.outLanes.put n { s.outLane n with
            position := (s.outLane n).position + 1, insRot := some v
            remaining := (s.outLane n).remaining.put v ((s.outLane n).remaining.get v - 1)
            out := some { c.cell with
              tag := (s.route r).outTag, continuity := (s.route r).continuity
              rs := stamp c.rs, ps := stamp c.ps
              discontinuity := c.cell.discontinuity || (s.svc v).insertMark || (s.route r).restartMark } } } t := by
    subst services
    refine ⟨_, exec_outputPosition_due due, ?_⟩
    rw [fillPosition_noResponse responses, insertOrOther_emitted idle admitted walked,
      emitInserted_eq (s := { s with services := s.services.put v judged }) reader head]
    have now : ({ s with services := s.services.put v judged } : State).svc v = judged := Tbl.get_put_self _ _ _
    rw [now, countStrays_eq, Tbl.put_put, ← straysEq]
    simp only [countedEq]
    exact finish_followed _
  have judgedEq (h : (s.svc v).clock.isSome = true) : s.judged v late = { s with services := s.services.put v judged } :=
    congrArg (fun x => ({ s with services := s.services.put v { s.svc v with
      lateness := late, shedPattern := x } } : State)) (if_pos h).symm
  refine ⟨fun stays => ?_, fun clock inessential below lone noNetwork => ?_⟩
  · rcases Option.eq_none_or_eq_some (s.svc v).clock with clock | ⟨m, clock⟩
    · have same : late = (s.svc v).lateness := by
        rw [lateEq, show projected = none from congrArg (Option.map _) clock]
      have unjudged : judged = s.svc v := by
        show ({ s.svc v with lateness := late, shedPattern := if (s.svc v).clock.isSome then _ else _ } : Service) = _
        rw [same, if_neg (by rw [clock]; exact Bool.false_ne_true)]
      refine inserted s ?_ (judgeService_noClock ringHead (projectedEq.trans (congrArg (Option.map _) clock)))
      rw [unjudged, State.svc, Tbl.put_get]
    · obtain ⟨p, projection, lateness⟩ := clocked clock
      have isSome : (s.svc v).clock.isSome = true := Option.isSome_of_eq_some clock
      exact inserted (s.judged v late) (judgedEq isSome) (judgeService_emits ringHead (projectedEq.trans projection)
        lateness (lead isSome) (stays.resolve_left (clock ▸ Option.some_ne_none m)))
  · obtain ⟨m, present⟩ := Option.isSome_iff_exists.1 clock
    obtain ⟨p, projection, lateness⟩ := clocked present
    subst lone
    have shed : shedHead v k (s.judged v late) = { s with
        services := s.services.put v judged
        events := countedEvents s v k fun y => { y with shed := sat32 y.shed }, slots := taken } := by
      rw [judgedEq clock]
      exact shedHead_eq (s := { s with services := s.services.put v judged }) reader head
    generalize left : shedHead v k (s.judged v late) = u at shed
    have service : u.svc v = judged := by rw [shed]; exact Tbl.get_put_self _ _ _
    have ringAfter : u.slot k = { s.slot k with
        ring := [], tail := (s.slot k).tail + 1, readers := [⟨v, (s.slot k).tail + 1, .none⟩] } := by
      rw [shed]
      exact Tbl.get_put_self _ _ _
    have noHead : headOf u v = none := by
      rw [headOf_one (s := u) (k := k) (by rw [service]; exact slot) (by rw [ringAfter]), ringAfter]
      rfl
    have idleAfter (w : SvcId) : PassedOver u n w := by
      by_cases hw : w = v
      · exact .inr (hw ▸ noHead)
      · have kept : u.svc w = s.svc w := by rw [shed]; exact Tbl.get_put_ne _ hw _
        have outLane : u.outLane n = s.outLane n := by rw [shed]; rfl
        exact passedOver_congr (others w hw) (by rw [outLane]) (by rw [outLane]) (by rw [kept])
    have walked : judgeService 9 n v r s = (u, false) := by
      rw [judgeService_sheds ringHead (projectedEq.trans projection) lateness (lead clock) inessential below, left,
        judgeService_noHead noHead]
    refine ⟨_, exec_outputPosition_due due, ?_⟩
    rw [fillPosition_noResponse responses, insertOrOther_passed idle admitted walked idleAfter,
      otherCell_filler (by rw [shed]; exact noNetwork) (by rw [shed]; exact responses), shed]
    simp only [countedEq]
    exact finish_followed _

/-- Settles O34: the early head holds its service, and nothing else may insert. -/
theorem earlyHeadHoldsTheService : Obligations.EarlyHeadHoldsTheService := by
  intro n v r k c ring m f late s settled due noResp others left free unique active service lane noNetwork slot clock
    running reader head rs lateEq early
  have idle (w : SvcId) (hw : w ≠ v) : PassedOver s n w := passedOver_of (others w hw)
  have admitted : mayInsert s n v = some r :=
    mayInsert_eq left free (onLane_eq unique active service lane) lane fun x hx =>
      absurd (noNetwork ▸ hx) List.not_mem_nil
  have ringHead : headOf s v = some (k, c) := by rw [headOf_one slot reader, head]; rfl
  have projected : projection (s.svc v) s.now = some (m.rs + BitVec.ofNat 36 ((s.now - m.ms).toNat * 10000)) := by
    rw [projection_eq, clock, running]
    rfl
  have lateness : latenessOf (s.svc v) (m.rs + BitVec.ofNat 36 ((s.now - m.ms).toNat * 10000)) c = late := by
    rw [lateEq, latenessOf, rs]
    rfl
  have walked := judgeService_holds (n := n) (r := r) (fuel := 8) ringHead projected lateness early
  have idleAfter (w : SvcId) : PassedOver { s with
      services := s.services.put v { s.svc v with lateness := late }
      outLanes := s.outLanes.put n { s.outLane n with held := (s.outLane n).held.put v true } } n w := by
    by_cases hw : w = v
    · subst hw
      refine passedOver_of (.inr (.inl ?_))
      show ((s.outLanes.put n _).get n).held.get w = true
      rw [Tbl.get_put_self]
      exact Tbl.get_put_self _ _ _
    · refine passedOver_congr (others w hw) ?_ ?_ (congrArg Service.slot (Tbl.get_put_ne _ hw _))
      · show ((s.outLanes.put n _).get n).remaining.get w = _
        rw [Tbl.get_put_self]
      · show ((s.outLanes.put n _).get n).held.get w = _
        rw [Tbl.get_put_self]
        exact Tbl.get_put_ne _ hw _
  rw [exec_outputPosition_due due, fillPosition_noResponse (noResponse noResp),
    insertOrOther_passed idle admitted walked idleAfter, otherCell_filler]
  · have placed (o : OutLane) : place n Cell.fillerCell { s with
        services := s.services.put v { s.svc v with lateness := late }, outLanes := s.outLanes.put n o } = { s with
        services := s.services.put v { s.svc v with lateness := late }
        outLanes := s.outLanes.put n { o with out := some Cell.fillerCell, position := o.position + 1 } } := by
      unfold place State.modOutLane State.outLane
      dsimp only
      rw [Tbl.put_put, Tbl.get_put_self]
    obtain ⟨lines, port⟩ : Settles s (s.modSvc v fun x => { x with lateness := late }) := (modSvc_quiet rfl).settles
    rw [placed]
    exact congrArg Host.Outcome.next (finish_eq ⟨lines settled.1, port settled.2⟩)
  · show ((s.outLanes.put n _).get n).fifo = []
    rw [Tbl.get_put_self]
    exact noNetwork
  · exact noResponse noResp

end Sys2Proof.Machine
end

section
/-!
PROOFS. Feed positions over the passes of a list (R71), and the store port's grant and bursts (R111 to R116).
-/
namespace Sys2Proof.Machine
set_option Elab.async false

/-! ### Feed positions (R71, R73) -/

theorem carry_eq {a b : Nat} (ha : a < 65536) (hb : b < 65536) :
    (if 65536 ≤ a + b then a + b - 65536 else a + b) = (a + b) % 65536 ∧
      (if 65536 ≤ a + b then 1 else 0) = (a + b) / 65536 := by
  constructor <;> split <;> omega

/-- The feed position after the passes of a list, from any start and accumulator (R71). -/
theorem foldl_passEnd (unitInt unitFrac : Nat) (small : unitFrac < 65536) : ∀ (l : List Clip) (p : FeedPos),
    p.frac < 65536 →
      (l.foldl (passEnd unitInt unitFrac) p).frac = (p.frac + l.length * unitFrac) % 65536 ∧
      (l.foldl (passEnd unitInt unitFrac) p).start = p.start + BitVec.ofInt 36 ((l.map spanOf).sum +
        ((l.length * unitInt + (p.frac + l.length * unitFrac) / 65536 : Nat) : Int))
  | [], p, hp => by
    have whole : p.frac / 65536 = 0 := Nat.div_eq_of_lt hp
    constructor
    · simp [Nat.mod_eq_of_lt hp]
    · simp [whole]
  | c :: l, p, hp => by
    obtain ⟨rest, carry⟩ := carry_eq hp small
    have next : passEnd unitInt unitFrac p c = ⟨p.start + signedTicks (spanOf c) +
        ticks (unitInt + (p.frac + unitFrac) / 65536), (p.frac + unitFrac) % 65536⟩ := by
      unfold passEnd
      dsimp only
      rw [rest, carry]
    obtain ⟨frac, start⟩ := foldl_passEnd unitInt unitFrac small l (passEnd unitInt unitFrac p c) (by
      rw [next]
      exact Nat.mod_lt _ (by omega))
    rw [next] at frac start
    rw [List.foldl_cons, next, frac, start]
    dsimp only
    have length : (c :: l).length * unitFrac = unitFrac + l.length * unitFrac := by
      rw [List.length_cons, Nat.succ_mul, Nat.add_comm]
    have units : (c :: l).length * unitInt = unitInt + l.length * unitInt := by
      rw [List.length_cons, Nat.succ_mul, Nat.add_comm]
    rw [length, units]
    generalize l.length * unitFrac = y
    generalize l.length * unitInt = z
    refine ⟨by omega, ?_⟩
    have sum : spanOf c + (((unitInt + (p.frac + unitFrac) / 65536 : Nat) : Int) + ((l.map spanOf).sum +
        ((z + ((p.frac + unitFrac) % 65536 + y) / 65536 : Nat) : Int))) =
        ((c :: l).map spanOf).sum + ((unitInt + z + (p.frac + (unitFrac + y)) / 65536 : Nat) : Int) := by
      rw [List.map_cons, List.sum_cons]
      omega
    rw [← sum]
    simp only [BitVec.ofInt_add, ← BitVec.add_assoc, BitVec.ofInt_natCast]
    rfl

/-- Settles O41: the passes of the whole list from a feed position of 0. -/
theorem feedPositionsPayOutTheFraction : Obligations.FeedPositionsPayOutTheFraction := by
  intro unitInt unitFrac l small
  obtain ⟨frac, start⟩ := foldl_passEnd unitInt unitFrac small l ⟨0, 0⟩ (Nat.zero_lt_succ _)
  dsimp only at frac start
  rw [Nat.zero_add] at frac start
  rw [zero_add] at start
  exact ⟨frac, start⟩

/-! ### Steps of the port that leave it busy (R110) -/

theorem settled_of_busy {s : State} (lines : OutputLinesFollow s) (busy : s.port.phase ≠ .idle) : Settled s :=
  ⟨lines, fun idle => absurd idle busy⟩

theorem exec_busGrant {busBusy : Bool} {s t : State} (step : grantStep busBusy s = t) (log : t.log = s.log)
    (settled : Settled t) : exec (.busGrant busBusy) s = .next t := by
  have once : oneEvent (grantStep busBusy) s = t := (oneEvent_of_log_eq (by rw [step, log])).trans step
  exact congrArg Host.Outcome.next ((congrArg finish once).trans (finish_eq settled))

theorem exec_burstAnswer {ack error inhibit : Bool} {data : List Byte} {s t : State}
    (step : burstAnswerStep ⟨ack, error, inhibit⟩ data s = t) (log : t.log = s.log) (settled : Settled t) :
    exec (.burstAnswer ack error inhibit data) s = .next t := by
  have once : oneEvent (burstAnswerStep ⟨ack, error, inhibit⟩ data) s = t :=
    (oneEvent_of_log_eq (by rw [step, log])).trans step
  exact congrArg Host.Outcome.next ((congrArg finish once).trans (finish_eq settled))

/-! ### The arbiter (R113) -/

theorem Alert.rank_lt (x : Alert) : x.rank < 9 := by
  unfold Alert.rank
  cases x.priority with
  | none => decide
  | some p => exact Nat.lt_succ_of_lt p.isLt

/-- The arbiter's choice is the wanting slot of lowest rank, the lowest among equals (R113). -/
theorem choose_eq {s : State} {k : SlotId} : ∀ {l : List SlotId}, l.Pairwise (· < ·) → k ∈ l →
    (∀ j ∈ l, j ≠ k → arbiterRank s k < arbiterRank s j ∨ (arbiterRank s k = arbiterRank s j ∧ k < j)) →
    choose s l = some k
  | [], _, mem, _ => absurd mem List.not_mem_nil
  | i :: l, ordered, mem, best => by
    obtain ⟨below, ordered'⟩ := List.pairwise_cons.1 ordered
    unfold choose
    by_cases same : i = k
    · subst same
      cases chosen : choose s l with
      | none => rfl
      | some j =>
        have inside := choose_mem chosen
        have apart : j ≠ i := (below j inside).ne'
        have least : arbiterRank s i ≤ arbiterRank s j := by
          rcases best j (List.mem_cons_of_mem i inside) apart with lower | ⟨equal, -⟩
          · exact lower.le
          · exact equal.le
        exact if_pos least
    · have inside : k ∈ l := (List.mem_cons.1 mem).resolve_left (Ne.symm same)
      rw [choose_eq ordered' inside fun j hj => best j (List.mem_cons_of_mem i hj)]
      refine if_neg ?_
      have later := below k inside
      rcases best i List.mem_cons_self same with lower | ⟨-, less⟩
      · exact not_le.2 lower
      · exact absurd less (not_lt.2 later.le)

theorem choose_congr {s t : State} (rank : ∀ k, arbiterRank t k = arbiterRank s k) :
    ∀ l, choose t l = choose s l
  | [] => rfl
  | k :: l => by simp only [choose, choose_congr rank l, rank]

theorem wantingSlots_sorted (s : State) : (wantingSlots s).Pairwise (· < ·) := by
  unfold wantingSlots
  rw [Tbl.indices_eq_filter]
  exact (List.pairwise_lt_finRange 16).filter _

theorem mem_wantingSlots {s : State} {k : SlotId} : k ∈ wantingSlots s ↔ (s.slot k).wants = true :=
  Tbl.mem_indices _ _ _

theorem arbiterRank_alert {s : State} {k : SlotId} {a : AlertId} (owner : (s.slot k).owner = some (.alert a)) :
    arbiterRank s k = (s.alert a).rank := by
  simp only [arbiterRank, owner]

theorem arbiterRank_other {s : State} {k : SlotId} (owner : ∀ a, (s.slot k).owner ≠ some (.alert a)) :
    arbiterRank s k = 9 + (s.slot k).ring.length := by
  unfold arbiterRank
  split
  · next a e => exact absurd e (owner a)
  · rfl

theorem clipUnder_eq {x : Slot} {c : ClipId}
    (h : (∃ l, x.clips = .list l ∧ l[x.cursor.listPos]? = some c) ∨ x.clips = .looped c) : x.clipUnder = c := by
  rcases h with ⟨l, clips, at_⟩ | clips
  · simp only [Slot.clipUnder, clips]
    rw [List.getD_eq_getElem?_getD, at_]
    rfl
  · simp only [Slot.clipUnder, clips]

end Sys2Proof.Machine
end

section
/-!
PROOFS. What a grant and the store's answers make of an OWNER port (R111 to R116).
-/
namespace Sys2Proof.Machine
set_option Elab.async false

theorem grantStep_eq {busBusy : Bool} {s : State} (requesting : s.port.phase = .requesting)
    (usable : s.port.fast = true ∨ busBusy = false) : grantStep busBusy s = takeBus s :=
  if_pos ⟨requesting, usable⟩

/-- The port as it takes the bus (R111). -/
def State.owning (s : State) : State := s.modPort fun p => { p with phase := .owner, tenure := 0 }

section
variable {s : State}

theorem takeBus_resume (resume : s.port.resume = true) (limit : 1 ≤ s.port.tenureLimit) :
    takeBus s = { s with port := { s.port with phase := .owner, tenure := 1, resume := false } } := by
  show decideNext 9 s.owning = _
  rw [decideNext, if_neg (by exact Nat.not_le.2 limit), if_pos (by exact resume)]
  rfl

theorem takeBus_withdraws (noResume : s.port.resume = false) (limit : 1 ≤ s.port.tenureLimit)
    (none : s.port.dutyLimit ≤ s.port.duty ∨ ∀ k, (s.slot k).wants = false) (gap : 1 ≤ s.port.gap) :
    takeBus s = { s with port := { s.port with phase := .releasing, tenure := 0, gapCount := s.port.gap } } := by
  have ends : endTenure s.owning = { s with port := { s.port with
      phase := .releasing, tenure := 0, gapCount := s.port.gap } } := endTenure_of_gap (s := s.owning) gap
  show decideNext 9 s.owning = _
  rw [decideNext, if_neg (by exact Nat.not_le.2 limit), if_neg (by exact ne_true_of_eq_false noResume)]
  split
  · next duty =>
    have noWish : wantingSlots s.owning = [] :=
      List.eq_nil_iff_forall_not_mem.2 fun k hk => by
        have idle := none.resolve_left (Nat.not_le.2 duty) k
        exact absurd (mem_wantingSlots.1 hk) (ne_true_of_eq_false idle)
    rw [noWish]
    exact ends
  · exact ends

theorem takeBus_begins {k : SlotId} (noResume : s.port.resume = false) (limit : 1 ≤ s.port.tenureLimit)
    (duty : s.port.duty < s.port.dutyLimit) (chosen : choose s (wantingSlots s) = some k)
    (readable : unreadable s k = false) :
    takeBus s = { s with
      slots := s.slots.put k { s.slot k with inFlight := some (s.slot k).cursor }
      port := { s.port with
        phase := .owner, tenure := 1, duty := s.port.duty + 1, buffer := [], fetch := some (startFetch s k) } } := by
  have choice : choose s.owning (wantingSlots s.owning) = some k := 
    (choose_congr (s := s) (t := s.owning) (fun _ => rfl) (wantingSlots s)).trans chosen
  show decideNext 9 s.owning = _
  rw [decideNext, if_neg (by exact Nat.not_le.2 limit), if_neg (by exact ne_true_of_eq_false noResume),
    if_pos (by exact duty), choice]
  exact if_neg (ne_true_of_eq_false readable)

end

/-- Settles O35: the resumed fetch, the withdrawal, and the arbiter's choice. -/
theorem grantTakesTheBus : Obligations.GrantTakesTheBus := by
  intro busBusy s settled
  refine ⟨fun unusable => ?_, fun requesting usable limit => ⟨fun resume => ?_, fun noResume none gap => ?_,
    fun k c noResume duty wants best clips loaded enabled => ?_⟩⟩
  · refine exec_busGrant (if_neg fun ⟨requesting, usable⟩ => ?_) rfl settled
    rcases unusable with phase | ⟨slow, busy⟩
    · exact phase requesting
    · rcases usable with fast | free
      · exact Bool.false_ne_true (slow.symm.trans fast)
      · exact Bool.false_ne_true (free.symm.trans busy)
  · exact exec_busGrant ((grantStep_eq requesting usable).trans (takeBus_resume resume limit)) rfl
      (settled_of_busy settled.1 nofun)
  · exact exec_busGrant ((grantStep_eq requesting usable).trans (takeBus_withdraws noResume limit none gap)) rfl
      (settled_of_busy settled.1 nofun)
  · have clip : (s.slot k).clipUnder = c := clipUnder_eq clips
    have readable : unreadable s k = false := by
      simp [unreadable, clip, loaded, enabled]
    have ranked (j : SlotId) (hj : j ∈ wantingSlots s) (other : j ≠ k) :
        arbiterRank s k < arbiterRank s j ∨ (arbiterRank s k = arbiterRank s j ∧ k < j) := by
      have wantsToo := mem_wantingSlots.1 hj
      rcases best with ⟨a, owner, first⟩ | noAlert
      · rw [arbiterRank_alert owner]
        by_cases alert : ∃ b, (s.slot j).owner = some (.alert b)
        · obtain ⟨b, owner'⟩ := alert
          rw [arbiterRank_alert owner']
          exact .inl (first j b other wantsToo owner')
        · rw [arbiterRank_other fun b e => alert ⟨b, e⟩]
          exact .inl ((s.alert a).rank_lt.trans_le (Nat.le_add_right 9 _))
      · obtain ⟨owner', fuller⟩ := noAlert j wantsToo
        rw [arbiterRank_other (noAlert k wants).1, arbiterRank_other owner']
        rcases fuller other with less | ⟨equal, below⟩
        · exact .inl (Nat.add_lt_add_left less 9)
        · exact .inr ⟨congrArg (9 + ·) equal, below⟩
    have chosen := choose_eq (wantingSlots_sorted s) (mem_wantingSlots.2 wants) ranked
    have begun := (grantStep_eq requesting usable).trans (takeBus_begins noResume limit duty chosen readable)
    rw [exec_busGrant begun rfl (settled_of_busy settled.1 nofun)]
    unfold startFetch
    dsimp only
    rw [clip]
    rfl

/-- An answer to an OWNER port whose fetch is not abandoned is taken by R116. -/
theorem burstAnswerStep_eq {ans : Answer} {data : List Byte} {f : Fetch} {s : State} (owner : s.port.phase = .owner)
    (fetch : s.port.fetch = some f) (live : s.port.abandon = false) :
    burstAnswerStep ans data s = answerStep f ans data s := by
  unfold burstAnswerStep
  rw [if_pos owner, fetch]
  exact if_neg (ne_true_of_eq_false live)

/-- Settles O36: each answer before the last burst leaves the port OWNER. -/
theorem answersMoveTheBurst : Obligations.AnswersMoveTheBurst := by
  intro inhibit data f s settled owner fetch live early
  have answered {ans : Answer} {p : Port} (step : answerStep f ans data s = { s with port := p })
      (busy : p.phase = .owner) : exec (.burstAnswer ans.ack ans.error ans.inhibit data) s = .next { s with port := p } :=
    exec_burstAnswer ((burstAnswerStep_eq owner fetch live).trans step) rfl
      (settled_of_busy settled.1 (by rw [show ({ s with port := p } : State).port.phase = .owner from busy]; decide))
  have done (buffer : List Byte) : burstDone f buffer s = s.modPort fun p =>
      { p with buffer := buffer, fetch := some { f with burst := f.burst + 1, beat := none, retry := 0 } } :=
    if_neg early.ne
  refine ⟨fun whole => ?_, fun whole => ?_, fun j beat more => ?_, fun beat => ?_, fun retry => ?_⟩
  · refine answered (ans := ⟨true, false, false⟩) ?_ owner
    simp only [answerStep, whole]
    exact done _
  · refine answered (ans := ⟨true, false, true⟩) ?_ owner
    simp only [answerStep, whole]
    rfl
  · refine answered (ans := ⟨true, false, inhibit⟩) ?_ owner
    simp only [answerStep, beat]
    exact if_pos more
  · refine answered (ans := ⟨true, false, inhibit⟩) ?_ owner
    simp only [answerStep, beat]
    exact done _
  · refine answered (ans := ⟨true, true, inhibit⟩) ?_ owner
    exact if_neg (Nat.not_le.2 retry)

end Sys2Proof.Machine
end

section
/-!
PROOFS. Equations for closing an event and releasing a slot, and the last cell of a tenure (R57, R94, R96, R98, R115,
R119).
-/
namespace Sys2Proof.Machine
set_option Elab.async false

/-! ### Closing an event (R57, R62, R63) -/

/-- An event closed with an outcome: its record (R57). -/
def Event.closedAs (x : Event) (o : Outcome) (f : OutFlags) : Event :=
  { x with state := o.state, outcome := some o, flags := x.flags.union f, slot := none }

theorem closeEvent_live {e : EventId} {s : State} (live : (s.event e).live = true) (o : Outcome) (f : OutFlags) :
    closeEvent e o f s = { s with
      events := s.events.put e ((s.event e).closedAs o f)
      log := s.log ++ [entryOf e ((s.event e).closedAs o f) o s.now] } :=
  if_pos live

theorem live_cueing {x : Event} (h : x.state = .cueing) : x.live = true := by simp only [Event.live, h]
theorem live_active {x : Event} (h : x.state = .active) : x.live = true := by simp only [Event.live, h]
theorem live_scheduled {x : Event} (h : x.state = .scheduled) : x.live = true := by simp only [Event.live, h]

/-- One log entry stands where the event of the part appended it (R63). -/
theorem oneEvent_of_entry {f : State → State} {s : State} {x : LogEntry} (h : (f s).log = s.log ++ [x]) :
    oneEvent f s = f s := by
  have sorted : (f s).log.take s.log.length ++ sortEntries ((f s).log.drop s.log.length) = (f s).log := by
    rw [h, List.take_left, List.drop_left]
    rfl
  show { f s with log := (f s).log.take s.log.length ++ sortEntries ((f s).log.drop s.log.length) } = f s
  rw [sorted]

theorem OutFlags.union_none (f : OutFlags) : f.union {} = f := by simp [OutFlags.union]

/-! ### Releasing a slot (R94) -/

section
variable {k : SlotId} {s : State}

theorem slotGone_other (h : ∀ f, s.port.fetch = some f → f.slot ≠ k) : slotGone k s = s := by
  unfold slotGone
  split
  · rfl
  · next f fetch => exact if_pos (.inl (h f fetch))

theorem handOver_nobody (h : s.waitList = []) : handOver k s.waitList s = s := by
  rw [h]
  show { s with waitList := [] } = s
  rw [← h]

/-- A slot that no service reads, nobody waits for and the port does not fetch for is emptied (R94). -/
theorem releaseSlot_alone (h : ReleasedAlone s k) :
    releaseSlot k s = { s with slots := s.slots.put k Slot.reset } := by
  obtain ⟨readers, nobody, fetch⟩ := h
  have detached : detachAll k s = s := by
    unfold detachAll
    rw [readers]
    rfl
  have emptied : emptySlot k s = { s with slots := s.slots.put k Slot.reset } := by
    unfold emptySlot
    rw [detached]
    exact slotGone_other (s := s.modSlot k fun _ => Slot.reset) fetch
  unfold releaseSlot
  rw [emptied]
  exact handOver_nobody (s := { s with slots := s.slots.put k Slot.reset }) nobody

/-- The release of a slot with one reader detaches its service (R94). -/
theorem releaseSlot_one {r : Reader} (readers : (s.slot k).readers = [r]) (nobody : s.waitList = [])
    (fetch : ∀ f, s.port.fetch = some f → f.slot ≠ k) :
    releaseSlot k s = { s with
      slots := s.slots.put k Slot.reset, services := s.services.put r.svc { s.svc r.svc with slot := none } } := by
  have detached : detachAll k s = s.modSvc r.svc fun v => { v with slot := none } := by
    unfold detachAll
    rw [readers]
    rfl
  have emptied : emptySlot k s = { s with
      slots := s.slots.put k Slot.reset, services := s.services.put r.svc { s.svc r.svc with slot := none } } := by
    unfold emptySlot
    rw [detached]
    exact slotGone_other (s := (s.modSvc r.svc _).modSlot k fun _ => Slot.reset) fetch
  unfold releaseSlot
  rw [emptied]
  exact handOver_nobody (s := { s with
    slots := s.slots.put k Slot.reset, services := s.services.put r.svc { s.svc r.svc with slot := none } }) nobody

end

/-! ### A tenure's last cell (R96, R98, R115, R119) -/

section
variable {k : SlotId} {c : ClipId} {s : State}

theorem nextStep_last (limit : s.port.tenureLimit ≤ s.port.tenure) (gap : 1 ≤ s.port.gap) :
    nextStep s = { s with port := { s.port with phase := .releasing, gapCount := s.port.gap } } := by
  show decideNext 9 s = _
  rw [decideNext, if_pos limit]
  exact endTenure_of_gap gap

theorem advanceCursor_eq (clip : (s.slot k).clipUnder = c) (more : (s.slot k).cursor.cell + 1 < (s.clip c).length) :
    advanceCursor k s = s.modSlot k fun x => { x with cursor := { x.cursor with cell := x.cursor.cell + 1 } } := by
  have next : (s.slot k).advance (s.clip (s.slot k).clipUnder) =
      { s.slot k with cursor := { (s.slot k).cursor with cell := (s.slot k).cursor.cell + 1 } } := by
    rw [clip]
    exact if_pos more
  exact congrArg (fun x => ({ s with slots := s.slots.put k x } : State)) next

/-- A cell skipped in the middle of a clip (R98). -/
theorem skipCell_eq (clip : (s.slot k).clipUnder = c) (more : (s.slot k).cursor.cell + 1 < (s.clip c).length) :
    skipCell k s = s.modSlot k fun x =>
      { x with cursor := { x.cursor with cell := x.cursor.cell + 1 }, faults := sat16 x.faults } := by
  unfold skipCell
  rw [advanceCursor_eq clip more]
  exact modSlot_modSlot s k _ _

/-- A cell written in the middle of a clip into a ring that nobody reads, for an ad event (R96). -/
theorem writeCell_eq {e : EventId} {cell : Cell} (owner : (s.slot k).owner = some (.event e))
    (readers : (s.slot k).readers = []) (clip : (s.slot k).clipUnder = c)
    (more : (s.slot k).cursor.cell + 1 < (s.clip c).length) :
    writeCell k cell s = { s with slots := s.slots.put k { s.slot k with
      ring := (s.slot k).ring ++ [⟨cell, (s.slot k).cursor.pass,
        convert (s.clip c) (s.slot k).feedStart cell.rs, convert (s.clip c) (s.slot k).feedStart cell.ps⟩]
      written := (s.slot k).written + 1, faults := 0
      cursor := { (s.slot k).cursor with cell := (s.slot k).cursor.cell + 1 } } } := by
  generalize written : s.modSlot k (fun x => x.append (s.clip x.clipUnder) cell) = t
  have slot : t.slot k = (s.slot k).append (s.clip c) cell := by rw [← written, State.modSlot_self, clip]
  have unreported : reportWritten k t = t := by
    simp only [reportWritten, slot, Slot.append, owner]
  have advanced : advanceCursor k t =
      t.modSlot k fun x => { x with cursor := { x.cursor with cell := x.cursor.cell + 1 } } := by
    refine advanceCursor_eq (c := c) ?_ ?_
    · rw [slot]
      exact clip
    · rw [slot, ← written]
      exact more
  have unattached : attachLoss k (advanceCursor k t) = advanceCursor k t := by
    have ad : ((advanceCursor k t).slot k).owner = some (.event e) := by
      rw [advanced, State.modSlot_self, slot]
      exact owner
    simp only [attachLoss, ad]
  have unread : ((advanceCursor k t).slot k).readers = [] := by
    rw [advanced, State.modSlot_self, slot]
    exact readers
  show settleRing k (attachLoss k (advanceCursor k (reportWritten k (s.modSlot k _)))) = _
  rw [written, unreported, unattached, settleRing_noReaders unread, advanced, ← written, modSlot_modSlot]
  unfold State.modSlot
  dsimp only [Function.comp]
  rw [clip]
  rfl

end

end Sys2Proof.Machine
end

section
/-!
PROOFS. A finished cell and a store fault at the end of a tenure (R96, R98, R115, R119).
-/
namespace Sys2Proof.Machine
set_option Elab.async false

/-- An answer of the store that closes at most one event, with what follows it. -/
theorem exec_burstAnswer_followed {ack error inhibit : Bool} {data : List Byte} {s t : State}
    (step : burstAnswerStep ⟨ack, error, inhibit⟩ data s = t) (log : t.log = s.log ∨ ∃ x, t.log = s.log ++ [x]) :
    ∃ u, exec (.burstAnswer ack error inhibit data) s = .next u ∧ Followed t u := by
  have once : oneEvent (burstAnswerStep ⟨ack, error, inhibit⟩ data) s = t := by
    rcases log with same | ⟨x, entry⟩
    · exact (oneEvent_of_log_eq (by rw [step, same])).trans step
    · exact (oneEvent_of_entry (by rw [step, entry])).trans step
  refine ⟨finish t, ?_, finish_followed t⟩
  exact congrArg Host.Outcome.next (congrArg finish once)

/-- The store's last answer leaves the port without a fetch, and a fault with its flag (R115, R119). -/
def State.fetched (s : State) (fault : Bool) : State :=
  { s with
    storeFaultSeen := bif fault then true else s.storeFaultSeen
    port := { s.port with fetch := none, buffer := [], abandon := false } }

/-- The slot whose fetch has ended (R96, R98). -/
def State.landed (s : State) (fault : Bool) (k : SlotId) : State :=
  { s.fetched fault with slots := s.slots.put k { s.slot k with inFlight := none } }

section
variable {k : SlotId} {s : State}

theorem fetchDone_media {bytes : List Byte} {cell : Cell} {e : EventId} (flight : (s.slot k).inFlight.isSome = true)
    (owner : (s.slot k).owner = some (.event e)) (fetchEnd : (s.slot k).fetchEnd = .none)
    (valid : judge bytes = some cell) (media : cell.kind = .media) :
    fetchDone k bytes s = writeCell k cell (s.modSlot k fun y => { y with inFlight := none }) := by
  have taken : ¬((s.slot k).inFlight.isNone = true ∨ (s.slot k).owner.isNone = true ∨ (s.slot k).fetchEnd ≠ .none) := by
    rw [fetchEnd, owner, Option.isNone_eq_false_iff.2 flight]
    simp
  unfold fetchDone
  dsimp only
  rw [if_neg taken, valid]
  exact if_pos media

/-- A fault handled by the slot's owner (R98). -/
def ownerFault (k : SlotId) (s : State) : Owner → State
  | .event e => adFault k e s
  | .loss _ => skipCell k s
  | .alert a => alertFault a (skipCell k s)

theorem fetchFault_eq {owner : Owner} (flight : (s.slot k).inFlight.isSome = true)
    (fetchEnd : (s.slot k).fetchEnd = .none) (owned : (s.slot k).owner = some owner) :
    fetchFault k s = ownerFault k (s.modSlot k fun y => { y with inFlight := none }) owner := by
  have taken : ¬((s.slot k).inFlight.isNone = true ∨ (s.slot k).fetchEnd ≠ .none) := by
    rw [fetchEnd, Option.isNone_eq_false_iff.2 flight]
    simp
  unfold fetchFault
  dsimp only
  rw [if_neg taken, owned]
  cases owner <;> rfl

end

/-- Settles O37: the cell goes to the ring's end, and the tenure ends with it. -/
theorem finishedFetchFillsTheRing : Obligations.FinishedFetchFillsTheRing := by
  intro data f c e cell s ⟨settled, port, fetch, live, noResume, limit, gap, flight, fetchEnd, clips, more⟩ burst whole
    readers owner valid media
  have landed : (s.landed false f.slot).slot f.slot = { s.slot f.slot with inFlight := none } := Tbl.get_put_self _ _ _
  have written := writeCell_eq (s := s.landed false f.slot) (k := f.slot) (e := e) (cell := cell) (c := c)
    (by rw [landed]; exact owner) (by rw [landed]; exact readers) (by rw [landed]; exact clipUnder_eq clips)
    (by rw [landed]; exact more)
  have completed : fetchDone f.slot (s.port.buffer ++ data.take 32) (dropFetch s) =
      writeCell f.slot cell (s.landed false f.slot) := by
    have fetched : (dropFetch s).modSlot f.slot (fun y => { y with inFlight := none }) = s.landed false f.slot := rfl
    rw [fetchDone_media (s := dropFetch s) flight owner fetchEnd valid media, fetched]
  refine exec_burstAnswer ?_ rfl (settled_of_busy settled.1 nofun)
  rw [burstAnswerStep_eq port fetch live]
  have done : answerStep f ⟨true, false, false⟩ data s = nextStep (writeCell f.slot cell (s.landed false f.slot)) := by
    have moved : answerStep f ⟨true, false, false⟩ data s = burstDone f (s.port.buffer ++ data.take 32) s := by
      simp [answerStep, whole]
    exact (moved.trans (if_pos burst)).trans (congrArg nextStep completed)
  rw [done, written]
  refine (nextStep_last (by exact limit) (by exact gap)).trans ?_
  rw [landed]
  dsimp only [State.landed, State.fetched]
  rw [Tbl.put_put]
  rfl

section
variable {ack error inhibit : Bool} {data : List Byte} {f : Fetch} {c : ClipId} {s : State}

/-- A fault at the end of a tenure is the owner's, and the tenure ends with it (R98, R119). -/
theorem burstAnswerStep_fault (last : LastOfTenure s f c) (faulted : ack = false ∨ (error = true ∧ 8 ≤ f.retry)) :
    burstAnswerStep ⟨ack, error, inhibit⟩ data s = nextStep (fetchFault f.slot (s.fetched true)) := by
  obtain ⟨-, port, fetch, live, -⟩ := last
  rw [burstAnswerStep_eq port fetch live]
  cases ack with
  | false => rfl
  | true =>
    obtain ⟨wrong, retries⟩ := faulted.resolve_left Bool.noConfusion
    subst wrong
    exact if_pos retries

end

/-- A fault counted on a live channel (R152). -/
theorem alertFault_live {a : AlertId} {s : State} (live : (s.alert a).state ≠ .idle) :
    alertFault a s = { s with alerts := s.alerts.put a { s.alert a with
      faults := sat16 (s.alert a).faults
      state := if (s.alert a).state = .active ∧ 3 ≤ (s.alert a).faults then .stalled else (s.alert a).state
      stallSeen := if (s.alert a).state = .active ∧ 3 ≤ (s.alert a).faults then true else (s.alert a).stallSeen } } := by
  have fourth : 4 ≤ sat16 (s.alert a).faults ↔ 3 ≤ (s.alert a).faults := by unfold sat16; omega
  unfold alertFault State.modAlert
  dsimp only
  rw [if_neg live]
  simp only [fourth]
  split
  · rfl
  · rfl

theorem stopFetch_fetching {k : SlotId} {s : State} (h : (s.slot k).fetchEnd = .none) :
    stopFetch k s = { s with slots := s.slots.put k { s.slot k with fetchEnd := .stopped } } :=
  congrArg (fun x => ({ s with slots := s.slots.put k x } : State)) (if_pos h)

theorem stopFetch_stopped {k : SlotId} {s : State} (h : (s.slot k).fetchEnd ≠ .none) : stopFetch k s = s :=
  modSlot_eq_self (if_neg h)

/-- The insertion of an INSERTING service ended early by its event (R32). -/
theorem earlyEnd_inserting {e : EventId} {v : SvcId} {k : SlotId} {s : State} (o : Option Outcome) (f : OutFlags)
    (slot : (s.event e).slot = some k) (service : (s.event e).service = v) (inserting : (s.svc v).state = .inserting)
    (fetching : (s.slot k).fetchEnd = .none) :
    earlyEnd e o f s = { s with
      events := s.events.put e { s.event e with
        outcome := o.or (s.event e).outcome, flags := (s.event e).flags.union f }
      services := s.services.put v { s.svc v with
        state := .returning, returnRef := none
        returnFlags := { (s.svc v).returnFlags with truncated := true } }
      slots := s.slots.put k { s.slot k with fetchEnd := .stopped } } := by
  have cut : (s.svc v).cutShort = { s.svc v with
      state := .returning, returnRef := none, returnFlags := { (s.svc v).returnFlags with truncated := true } } :=
    if_pos inserting
  unfold earlyEnd
  rw [slot, service]
  refine (stopFetch_fetching (s := (reportActive e o f s).modSvc v Service.cutShort) fetching).trans ?_
  unfold State.modSvc
  show { s with
    events := _, services := s.services.put v (s.svc v).cutShort, slots := _ } = _
  rw [cut]
  rfl

/-- A CUEING event whose slot nobody else needs is closed, and its service goes NETWORK (R30). -/
theorem endCueing_alone {e : EventId} {v : SvcId} {k : SlotId} {s : State} (o : Outcome) (f : OutFlags)
    (cueing : (s.event e).state = .cueing) (slot : (s.event e).slot = some k) (service : (s.event e).service = v)
    (alone : ReleasedAlone s k) :
    endCueing e o f s = { s with
      events := s.events.put e ((s.event e).closedAs o f)
      log := s.log ++ [entryOf e ((s.event e).closedAs o f) o s.now]
      services := s.services.put v (backInNetwork (s.svc v)), slots := s.slots.put k Slot.reset } := by
  unfold endCueing
  rw [slot, service, closeEvent_live (live_cueing cueing)]
  exact releaseSlot_alone (s := { s with
    events := s.events.put e ((s.event e).closedAs o f)
    log := s.log ++ [entryOf e ((s.event e).closedAs o f) o s.now]
    services := s.services.put v (backInNetwork (s.svc v)) }) alone

/-- A change of a channel that leaves it live, or not live, leaves the tallies (R161). -/
theorem putAlert_lines {a : AlertId} {x : Alert} {s : State} (live : x.state ≠ .idle ↔ (s.alert a).state ≠ .idle)
    (h : OutputLinesFollow s) : OutputLinesFollow { s with alerts := s.alerts.put a x } := by
  refine Quiet.lines_follow (s := s) { alerts := fun i => ?_ } h
  exact Tbl.rel_put (R := fun x y : Alert => decide (y.state ≠ .idle) = decide (x.state ≠ .idle)) (t := s.alerts)
    (fun _ => rfl) (decide_eq_decide.2 live) i

/-- Settles O38: the fault by the slot's owner. -/
theorem storeFaultsGoToTheOwner : Obligations.StoreFaultsGoToTheOwner := by
  intro ack error inhibit data f c s last faulted skipped
  have step := burstAnswerStep_fault (inhibit := inhibit) (data := data) last faulted
  obtain ⟨settled, port, fetch, live, noResume, limit, gap, flight, fetchEnd, clips, more⟩ := last
  have landed : (s.landed true f.slot).slot f.slot = { s.slot f.slot with inFlight := none } := Tbl.get_put_self _ _ _
  have passed : skipCell f.slot (s.landed true f.slot) = (s.landed true f.slot).modSlot f.slot fun x =>
      { x with cursor := { x.cursor with cell := x.cursor.cell + 1 }, faults := sat16 x.faults } :=
    skipCell_eq (c := c) (by rw [landed]; exact clipUnder_eq clips) (by rw [landed]; exact more)
  have ends {t : State} (owner : Owner) (owned : (s.slot f.slot).owner = some owner)
      (handled : ownerFault f.slot (s.landed true f.slot) owner = t) (kept : t.port = (s.landed true f.slot).port) :
      burstAnswerStep ⟨ack, error, inhibit⟩ data s = { t with port := releasingPort s.port } := by
    have faulted : fetchFault f.slot (s.fetched true) = t :=
      (fetchFault_eq (s := s.fetched true) flight fetchEnd owned).trans handled
    rw [step, faulted, nextStep_last (by rw [kept]; exact limit) (by rw [kept]; exact gap), kept]
    rfl
  have skippedEq : { (s.landed true f.slot).modSlot f.slot fun x =>
      { x with cursor := { x.cursor with cell := x.cursor.cell + 1 }, faults := sat16 x.faults } with
      port := releasingPort s.port } = skipped := by
    unfold State.modSlot
    rw [landed]
    dsimp only [State.landed, State.fetched]
    rw [Tbl.put_put]
    rfl
  refine ⟨fun v owner => ?_, ?_, fun e v owner active slot service inserting => ?_, ?_⟩
  · refine exec_burstAnswer ((ends (.loss v) owner passed rfl).trans skippedEq) rfl (settled_of_busy settled.1 nofun)
  · intro a owner alive stalls
    have handled : ownerFault f.slot (s.landed true f.slot) (.alert a) = _ :=
      (congrArg (alertFault a) passed).trans (alertFault_live (by exact alive))
    have stepped := ends (.alert a) owner handled rfl
    have lines : OutputLinesFollow { s with alerts := s.alerts.put a { s.alert a with
        faults := sat16 (s.alert a).faults
        state := if stalls then .stalled else (s.alert a).state
        stallSeen := if stalls then true else (s.alert a).stallSeen } } := by
      refine putAlert_lines ?_ settled.1
      show ¬(if stalls then AlertState.stalled else (s.alert a).state) = .idle ↔ ¬(s.alert a).state = .idle
      split
      · exact iff_of_true nofun alive
      · rfl
    refine exec_burstAnswer (stepped.trans ?_) rfl (settled_of_busy lines nofun)
    exact congrArg (fun u : State => { u with alerts := s.alerts.put a { s.alert a with
        faults := sat16 (s.alert a).faults
        state := if stalls then .stalled else (s.alert a).state
        stallSeen := if stalls then true else (s.alert a).stallSeen } }) skippedEq
  · have earlier := earlyEnd_inserting (e := e) (v := v) (k := f.slot) (s := s.landed true f.slot) (some .aborted)
      (fStoreFault.union fTruncated) slot service inserting (by rw [landed]; exact fetchEnd)
    have flags (x : OutFlags) : x.union (fStoreFault.union fTruncated) = { x with storeFault := true, truncated := true } := by
      simp [OutFlags.union, fStoreFault, fTruncated]
    have broken : adFault f.slot e (s.landed true f.slot) = stopFetch f.slot (earlyEnd e (some .aborted)
        (fStoreFault.union fTruncated) (s.landed true f.slot)) := by
      have state : ((s.landed true f.slot).event e).state = .active := active
      simp only [adFault, state]
    rw [earlier, stopFetch_stopped (by exact fun h => by rw [State.slot, Tbl.get_put_self] at h; cases h)] at broken
    obtain ⟨u, result, follows⟩ := exec_burstAnswer_followed (ends (.event e) owner broken rfl) (.inl rfl)
    refine ⟨u, result, ?_⟩
    rw [landed, flags] at follows
    dsimp only [State.landed, State.fetched] at follows
    rw [Tbl.put_put] at follows
    exact follows
  · intro e v owner cueing slot service readers nobody closed
    have closedEq : (s.event e).closedAs .aborted fStoreFault = closed := by
      simp [Event.closedAs, OutFlags.union, fStoreFault, closed, Outcome.state]
    have alone : ReleasedAlone (s.landed true f.slot) f.slot := ⟨by rw [landed]; exact readers, nobody, nofun⟩
    have handled : adFault f.slot e (s.landed true f.slot) = endCueing e .aborted fStoreFault (s.landed true f.slot) := by
      have state : ((s.landed true f.slot).event e).state = .cueing := cueing
      simp only [adFault, state]
    rw [endCueing_alone (s := s.landed true f.slot) .aborted fStoreFault cueing slot service alone] at handled
    obtain ⟨u, result, follows⟩ := exec_burstAnswer_followed (ends (.event e) owner handled rfl) (.inr ⟨_, rfl⟩)
    refine ⟨u, result, ?_⟩
    dsimp only [State.landed, State.fetched] at follows
    rw [Tbl.put_put] at follows
    rw [← closedEq]
    exact follows

end Sys2Proof.Machine
end

section
/-!
PROOFS. What a clock event reaches: the counter that it is given to, and no other (R165, R166).
-/
namespace Sys2Proof.Machine
set_option Elab.async false

/-! ### Folds whose steps each reach their own entry -/

section
variable {ι : Type} {f : State → ι → State} {R : State → State → Prop} {c : ι}

theorem foldl_untouched (refl : ∀ u, R u u) (trans : ∀ {u v w}, R u v → R v w → R u w)
    (other : ∀ u d, d ≠ c → R u (f u d)) : ∀ {l : List ι}, c ∉ l → ∀ s, R s (l.foldl f s)
  | [], _, s => refl s
  | a :: l, h, s => by
    obtain ⟨ha, hl⟩ := not_or.1 (mt List.mem_cons.2 h)
    exact trans (other s a (Ne.symm ha)) (foldl_untouched refl trans other hl (f s a))

/-- An entry named once sees its own step, and nothing of the steps before and after it. -/
theorem foldl_touched (refl : ∀ u, R u u) (trans : ∀ {u v w}, R u v → R v w → R u w)
    (other : ∀ u d, d ≠ c → R u (f u d)) :
    ∀ {l : List ι}, l.Nodup → c ∈ l → ∀ s, ∃ u, R s u ∧ R (f u c) (l.foldl f s)
  | [], _, mem, _ => absurd mem List.not_mem_nil
  | a :: l, nodup, mem, s => by
    obtain ⟨apart, rest⟩ := List.nodup_cons.1 nodup
    by_cases same : a = c
    · subst same
      exact ⟨s, refl s, foldl_untouched refl trans other apart (f s a)⟩
    · obtain ⟨u, before, after⟩ := foldl_touched refl trans other rest
        ((List.mem_cons.1 mem).resolve_left (Ne.symm same)) (f s a)
      exact ⟨u, trans (other s a same) before, after⟩

end

/-! ### Clock events (R165, R166) -/

/-- From `s` to `t` the counter, the lines, and all that is due but the clock events of other counters, are as before. -/
structure CounterKept (c : CounterId) (s t : State) : Prop where
  counter : t.counter c = s.counter c
  lines : t.lines = s.lines
  due : ∀ e : Due, (∀ d, d ≠ c → e.clocks d = false) → (e ∈ t.due ↔ e ∈ s.due)

section
variable {c d : CounterId} {s t u : State}

theorem CounterKept.refl (c : CounterId) (s : State) : CounterKept c s s := ⟨rfl, rfl, fun _ _ => Iff.rfl⟩

theorem CounterKept.trans (h : CounterKept c s t) (k : CounterKept c t u) : CounterKept c s u :=
  ⟨k.counter.trans h.counter, k.lines.trans h.lines, fun e he => (k.due e he).trans (h.due e he)⟩

theorem gateOpen_congr (lines : t.lines = s.lines) (g : Gate) : gateOpen t g = gateOpen s g := by
  cases g with
  | always => rfl
  | lineHigh n => simp only [gateOpen, line_congr lines]
  | lineLow n => simp only [gateOpen, line_congr lines]

theorem isDue_iff {e : Due} : s.isDue e = true ↔ e ∈ s.due := by simp [State.isDue]

theorem clockCounter_stopped (stopped : (s.counter c).running = false) : clockCounter c s = s := by
  simp [clockCounter, stopped]

theorem clockCounter_shut (shut : gateOpen s (s.counter c).gate = false) : clockCounter c s = s := by
  simp [clockCounter, shut]

theorem clockCounter_waits (running : (s.counter c).running = true) (admits : gateOpen s (s.counter c).gate = true)
    (last : (s.counter c).count ≤ 1) : clockCounter c s = s.addDue (.clock c) := by
  simp [clockCounter, running, admits, last]

theorem clockCounter_counts (running : (s.counter c).running = true) (admits : gateOpen s (s.counter c).gate = true)
    (more : 1 < (s.counter c).count) (free : Due.clock c ∉ s.due) :
    clockCounter c s = s.modCounter c fun y => { y with count := y.count - 1 } := by
  simp [clockCounter, running, admits, Nat.not_le.2 more, State.isDue, free]

theorem clockCounter_cases (c : CounterId) (s : State) :
    clockCounter c s = s ∨ clockCounter c s = s.addDue (.clock c) ∨
      clockCounter c s = s.modCounter c fun y => { y with count := y.count - 1 } := by
  unfold clockCounter
  dsimp only
  split
  · exact .inl rfl
  · split
    · exact .inl rfl
    · split
      · exact .inr (.inl rfl)
      · exact .inr (.inr rfl)

theorem addDue_kept {e : Due} (own : ∀ f : Due, (∀ d, d ≠ c → f.clocks d = false) → f ≠ e) :
    CounterKept c s (s.addDue e) :=
  ⟨rfl, rfl, fun f hf => by simp [State.addDue, own f hf]⟩

theorem clock_other (other : d ≠ c) (e : Due) (h : ∀ i, i ≠ c → e.clocks i = false) : e ≠ .clock d := by
  rintro rfl
  simpa [Due.clocks] using h d other

theorem pulse_other (other : d ≠ c) (e : Due) (h : ∀ i, i ≠ c → e.clocks i = false) : e ≠ .pulse d := by
  rintro rfl
  simpa [Due.clocks] using h d other

theorem clockCounter_kept (other : d ≠ c) (s : State) : CounterKept c s (clockCounter d s) := by
  rcases clockCounter_cases d s with e | e | e
  · rw [e]
    exact .refl c s
  · rw [e]
    exact addDue_kept (clock_other other)
  · rw [e]
    exact ⟨State.modCounter_ne s _ (Ne.symm other), rfl, fun _ _ => Iff.rfl⟩

theorem clockMs_kept (other : d ≠ c) (s : State) : CounterKept c s (clockMs s d) := by
  unfold clockMs
  split
  · exact addDue_kept (pulse_other other)
  · exact clockCounter_kept other s

theorem gateChanging_congr (counter : t.counter c = s.counter c)
    (due : ∀ n, Due.debounce n ∈ t.due ↔ Due.debounce n ∈ s.due) : gateChanging t c = gateChanging s c := by
  unfold gateChanging
  rw [counter]
  cases (s.counter c).gate.line? with
  | none => rfl
  | some n => exact Bool.eq_iff_iff.2 (isDue_iff.trans ((due n).trans isDue_iff.symm))

theorem CounterKept.debounce (h : CounterKept c s t) (n : LineId) : Due.debounce n ∈ t.due ↔ Due.debounce n ∈ s.due :=
  h.due _ fun _ _ => rfl

theorem CounterKept.clock (h : CounterKept c s t) : Due.clock c ∈ t.due ↔ Due.clock c ∈ s.due :=
  h.due _ fun d hd => by simp [Due.clocks, Ne.symm hd]

theorem CounterKept.pulse (h : CounterKept c s t) : Due.pulse c ∈ t.due ↔ Due.pulse c ∈ s.due :=
  h.due _ fun d hd => by simp [Due.clocks, Ne.symm hd]

theorem mem_countersOf {src : ClockSource} : c ∈ countersOf s src ↔ (s.counter c).source = src := by
  unfold countersOf
  rw [Tbl.mem_indices]
  exact decide_eq_true_iff

theorem countersOf_nodup (s : State) (src : ClockSource) : (countersOf s src).Nodup := by
  unfold countersOf
  rw [Tbl.indices_eq_filter]
  exact (List.nodup_finRange 16).filter _

/-- A clock event of a source does not reach a counter of another source (R165). -/
theorem clockSource_other {src : ClockSource} (other : (s.counter c).source ≠ src) :
    CounterKept c s (clockSource src s) :=
  foldl_untouched (R := CounterKept c) (.refl c) .trans (fun u _ hd => clockCounter_kept hd u) (mt mem_countersOf.1 other) s

/-- A clock event of a source reaches each counter of it once (R165). -/
theorem clockSource_own {src : ClockSource} (own : (s.counter c).source = src) :
    ∃ u, CounterKept c s u ∧ CounterKept c (clockCounter c u) (clockSource src s) :=
  foldl_touched (R := CounterKept c) (f := fun t i => clockCounter i t) (.refl c) .trans
    (fun u _ hd => clockCounter_kept hd u) (countersOf_nodup s src) (mem_countersOf.2 own) s

end

/-! ### The debounced edge (R159, R160) -/

theorem selects_iff (e : EdgeSelect) (new : Level) :
    e.selects new = true ↔ e = .both ∨ (e = .rise ∧ new = .high) ∨ (e = .fall ∧ new = .low) := by
  cases e <;> cases new <;> decide

theorem lineEdge_selected {n : LineId} {new : Level} {s : State} (h : (s.line n).edge.selects new = true) :
    lineEdge n new s = clockSource (.edges n) (s.modLine n fun x => { x with debounced := new }) :=
  if_pos h

theorem lineEdge_unselected {n : LineId} {new : Level} {s : State} (h : (s.line n).edge.selects new = false) :
    lineEdge n new s = s.modLine n fun x => { x with debounced := new } :=
  if_neg (ne_true_of_eq_false h)

end Sys2Proof.Machine
end

section
/-!
PROOFS. The debounced edge (R159, R160, R165, R166).
-/
namespace Sys2Proof.Machine
set_option Elab.async false

/-- The state in which the edge of an input line has been taken (R159). -/
def State.edged (s : State) (n : LineId) : State :=
  { s with
    due := s.due.erase (.debounce n)
    lines := s.lines.put n { s.line n with debounced := (s.line n).sampled, pending := 0 } }

section
variable {n : LineId} {s : State}

/-- The debounced edge of an input line, with the clock events that it makes (R159, R160). -/
theorem debounceStep_eq (input : (s.line n).direction = .input) (fresh : (s.line n).reinit = false)
    (differs : (s.line n).sampled ≠ (s.line n).debounced) :
    debounceStep n { s with due := s.due.erase (.debounce n) } =
      if (s.line n).edge.selects (s.line n).sampled then clockSource (.edges n) (s.edged n) else s.edged n := by
  have edged : (({ s with due := s.due.erase (.debounce n) } : State).modLine n fun y => { y with pending := 0 }).modLine n
      (fun x => { x with debounced := (s.line n).sampled }) = s.edged n := modLine_modLine _ n _ _
  have line : (({ s with due := s.due.erase (.debounce n) } : State).modLine n fun y => { y with pending := 0 }).line n =
      { s.line n with pending := 0 } := State.modLine_self _ _ _
  refine (if_pos ⟨input, fresh, differs⟩).trans ?_
  split
  · next selected => exact (lineEdge_selected (by rw [line]; exact selected)).trans (congrArg _ edged)
  · next unselected =>
    exact (lineEdge_unselected (by rw [line]; exact Bool.eq_false_iff.2 unselected)).trans edged

/-- What an edge leaves is settled: it is the edge of an input line (R110, R161). -/
theorem edged_settled {c : Tbl Counter 16} {d : List Due} (settled : Settled s)
    (input : (s.line n).direction = .input) :
    Settled { s with
      lines := s.lines.put n { s.line n with debounced := (s.line n).sampled, pending := 0 }
      counters := c, due := d } := by
  refine ⟨fun m output => ?_, settled.2⟩
  have other : m ≠ n := by
    rintro rfl
    have entry : ((s.lines.put m { s.line m with debounced := (s.line m).sampled, pending := 0 }).get m).direction =
        .output := output
    rw [Tbl.get_put_self, show (s.line m).direction = .input from input] at entry
    cases entry
  have same : ({ s with
      lines := s.lines.put n { s.line n with debounced := (s.line n).sampled, pending := 0 }
      counters := c, due := d } : State).line m = s.line m := Tbl.get_put_ne _ other _
  rw [same] at output ⊢
  exact settled.1 m output

end

/-- Settles O27: the edge reaches its line and, if selected, the counters of that line. -/
theorem debounceEdgeTakesTheLevel : Obligations.DebounceEdgeTakesTheLevel := by
  intro n s x selected settled line due input fresh differs selects
  subst line
  have selectedIff : (s.line n).edge.selects (s.line n).sampled = true ↔ selected := (selects_iff _ _).trans selects.symm
  have stepped := debounceStep_eq input fresh differs
  generalize result : (if (s.line n).edge.selects (s.line n).sampled then clockSource (.edges n) (s.edged n)
    else s.edged n) = t at stepped
  have shape : ∃ c d, t = { s with
      lines := s.lines.put n { s.line n with debounced := (s.line n).sampled, pending := 0 }
      counters := c, due := d } := by
    rw [← result]
    split
    · have lines := clockSource_lines (.edges n) (s.edged n)
      obtain ⟨l, c, d, changed⟩ := clockSource_cueOnly (.edges n) (s.edged n)
      rw [changed] at lines
      rw [changed, show l = (s.edged n).lines from lines]
      exact ⟨c, d, rfl⟩
    · exact ⟨s.counters, _, rfl⟩
  have whole : exec (.debounceEdge n) s = .next t := by
    have taken : exec (.debounceEdge n) s = .next (finish (debounceStep n { s with due := s.due.erase (.debounce n) })) :=
      congrArg Host.Outcome.next (takeDue_of_mem due)
    obtain ⟨c, d, e⟩ := shape
    rw [taken, stepped, e]
    exact congrArg Host.Outcome.next (finish_eq (edged_settled settled input))
  refine ⟨t, whole, shape, fun c quiet => ?_, fun c source sel running more alone => ?_⟩
  · rw [← result]
    split
    · next chosen =>
      rcases quiet with other | unselected | stopped
      · exact (clockSource_other (s := s.edged n) other).counter
      · exact absurd (selectedIff.1 chosen) unselected
      · by_cases own : (s.counter c).source = .edges n
        · obtain ⟨u, before, after⟩ := clockSource_own (s := s.edged n) (c := c) own
          rw [after.counter, clockCounter_stopped (by rw [before.counter]; exact stopped)]
          exact before.counter
        · exact (clockSource_other (s := s.edged n) own).counter
    · rfl
  · rw [if_pos (selectedIff.2 sel)] at result
    obtain ⟨u, before, after⟩ := clockSource_own (s := s.edged n) (c := c) source
    have counter : u.counter c = s.counter c := before.counter
    have level : (u.line n).debounced = (s.line n).sampled := by
      rw [line_congr before.lines]
      exact congrArg CueLine.debounced (Tbl.get_put_self _ _ _)
    have free : Due.clock c ∉ u.due := by
      rw [before.clock, State.edged, alone, List.erase_cons_head]
      exact List.not_mem_nil
    rw [← result, after.counter]
    refine ⟨fun opens => ?_, fun shuts => ?_⟩
    · have admits : gateOpen u (u.counter c).gate = true := by
        rw [counter]
        rcases opens with always | ⟨gate, high⟩ | ⟨gate, low⟩
        · rw [always]
          rfl
        · simp [gate, gateOpen, level, high]
        · simp [gate, gateOpen, level, low]
      rw [clockCounter_counts (by rw [counter]; exact running) admits (by rw [counter]; exact more) free,
        State.modCounter_self, counter]
    · have refuses : gateOpen u (u.counter c).gate = false := by
        rw [counter]
        rcases shuts with ⟨gate, low⟩ | ⟨gate, high⟩
        · simp [gate, gateOpen, level, low]
        · simp [gate, gateOpen, level, high]
      rw [clockCounter_shut refuses, counter]

end Sys2Proof.Machine
end

section
/-!
PROOFS. A tick that finds nothing owed (R81, R125, R148, R158, R165, R185).
-/
namespace Sys2Proof.Machine
set_option Elab.async false

/-! ### Nothing owed (R185) -/

section
variable {s : State}

theorem settleDue_nothing (none : s.due = []) : settleDue s = s := by
  unfold settleDue
  rw [none]
  show { s with due := [] } = s
  rw [← none]

theorem settlePositions_nothing {n : OutLaneId} (none : positionDue s n = false) : ∀ k, settlePositions n k s = s
  | 0 => rfl
  | _ + 1 => if_neg (ne_true_of_eq_false none)

theorem settleMs_nothing (none : s.due = []) (idle : ∀ n, positionDue s n = false) : settleMs s = s := by
  have lanes : settleLanes s = s := by
    show settlePositions 1 _ (settlePositions 0 _ s) = s
    rw [settlePositions_nothing (idle 0), settlePositions_nothing (idle 1)]
  unfold settleMs
  rw [settleDue_nothing none, lanes, settleDue_nothing none]

end

/-! ### The samples (R158, R159) -/

/-- A line after its sample (R158, R159). -/
def CueLine.sample (x : CueLine) (level : Level) : CueLine :=
  if x.direction = .output then x
  else if x.reinit = true then { x with sampled := level, debounced := level, pending := 0, reinit := false }
  else if level = x.debounced then { x with sampled := level, pending := 0 }
  else if x.pending < x.debounce then { x with sampled := level, pending := x.pending + 1 }
  else { x with sampled := level }

/-- The sample makes the line's edge fall due (R159). -/
def CueLine.edgeFalls (x : CueLine) (level : Level) : Prop :=
  x.direction = .input ∧ x.reinit = false ∧ level ≠ x.debounced ∧ x.debounce ≤ x.pending

/-- From `s` to `t` the line and what is due of it are as before. -/
structure LineKept (n : LineId) (s t : State) : Prop where
  line : t.line n = s.line n
  due : Due.debounce n ∈ t.due ↔ Due.debounce n ∈ s.due

section
variable {n m : LineId} {s t u : State} {pins : BitVec 8}

theorem LineKept.trans (h : LineKept n s t) (k : LineKept n t u) : LineKept n s u :=
  ⟨k.line.trans h.line, k.due.trans h.due⟩

/-- A line takes its sample, and its edge falls due if the sample makes it so (R158, R159). -/
theorem sampleLine_eq (pins : BitVec 8) (s : State) (n : LineId) :
    ((s.line n).edgeFalls (Level.of (pins.getLsbD n.val)) ∧ sampleLine pins s n =
      { s with
        lines := s.lines.put n ((s.line n).sample (Level.of (pins.getLsbD n.val))), due := s.due ++ [.debounce n] }) ∨
    (¬(s.line n).edgeFalls (Level.of (pins.getLsbD n.val)) ∧ sampleLine pins s n =
      { s with lines := s.lines.put n ((s.line n).sample (Level.of (pins.getLsbD n.val))) }) := by
  unfold sampleLine CueLine.sample CueLine.edgeFalls
  dsimp only
  split
  · next output =>
    refine .inr ⟨fun ⟨input, _⟩ => (nomatch output.symm.trans input), ?_⟩
    unfold State.line
    rw [Tbl.put_get]
  · next input =>
    split
    · next fresh => exact .inr ⟨fun ⟨_, old, _⟩ => (Bool.eq_false_iff.1 old) fresh, rfl⟩
    · next old =>
      split
      · next same => exact .inr ⟨fun ⟨_, _, differs, _⟩ => differs same, modLine_modLine s n _ _⟩
      · next differs =>
        split
        · next below => exact .inr ⟨fun ⟨_, _, _, reached⟩ => absurd below (not_lt.2 reached), modLine_modLine s n _ _⟩
        · next reached =>
          refine .inl ⟨⟨?_, Bool.eq_false_iff.2 old, differs, not_lt.1 reached⟩, rfl⟩
          cases direction : (s.line n).direction with
          | input => rfl
          | output => exact absurd direction input

theorem sampleLine_kept (other : m ≠ n) (s : State) : LineKept n s (sampleLine pins s m) := by
  rcases sampleLine_eq pins s m with ⟨-, e⟩ | ⟨-, e⟩
  · rw [e]
    exact ⟨Tbl.get_put_ne _ (Ne.symm other) _, by simp [Ne.symm other]⟩
  · rw [e]
    exact ⟨Tbl.get_put_ne _ (Ne.symm other) _, Iff.rfl⟩

/-- The samples of a tick reach the lines, and make edges fall due. -/
structure Sampled (s t : State) : Prop where
  shape : ∃ l d, t = { s with lines := l, due := d }
  due : ∀ e ∈ t.due, e ∈ s.due ∨ ∃ n, e = .debounce n

theorem Sampled.foldl (pins : BitVec 8) : ∀ (l : List LineId) (s : State), Sampled s (l.foldl (sampleLine pins) s)
  | [], s => ⟨⟨s.lines, s.due, rfl⟩, fun _ h => .inl h⟩
  | n :: l, s => by
    obtain ⟨⟨li, d, shape⟩, due⟩ := Sampled.foldl pins l (sampleLine pins s n)
    rw [List.foldl_cons]
    rcases sampleLine_eq pins s n with ⟨-, e⟩ | ⟨-, e⟩
    · rw [e] at shape due ⊢
      refine ⟨⟨li, d, shape⟩, fun e he => ?_⟩
      rcases due e he with old | edge
      · rcases List.mem_append.1 old with older | new
        · exact .inl older
        · exact .inr ⟨n, List.mem_singleton.1 new⟩
      · exact .inr edge
    · rw [e] at shape due ⊢
      exact ⟨⟨li, d, shape⟩, due⟩

/-- After the samples of a tick each line holds its own (R158, R159). -/
theorem foldl_sampleLine_line (pins : BitVec 8) (none : s.due = []) (n : LineId) :
    ((List.finRange 8).foldl (sampleLine pins) s).line n = (s.line n).sample (Level.of (pins.getLsbD n.val)) ∧
      (Due.debounce n ∈ ((List.finRange 8).foldl (sampleLine pins) s).due ↔
        (s.line n).edgeFalls (Level.of (pins.getLsbD n.val))) := by
  obtain ⟨u, before, after⟩ := foldl_touched (R := LineKept n) (f := sampleLine pins) (fun _ => ⟨rfl, Iff.rfl⟩) .trans
    (fun u _ hd => sampleLine_kept hd u) (List.nodup_finRange 8) (List.mem_finRange n) s
  have free : Due.debounce n ∉ u.due := by
    rw [before.due, none]
    exact List.not_mem_nil
  rw [after.line, after.due, ← before.line]
  rcases sampleLine_eq pins u n with ⟨falls, e⟩ | ⟨stays, e⟩
  · rw [e]
    exact ⟨Tbl.get_put_self _ _ _, iff_of_true (List.mem_append_right _ (List.mem_singleton_self _)) falls⟩
  · rw [e]
    exact ⟨Tbl.get_put_self _ _ _, iff_of_false free stays⟩

end

end Sys2Proof.Machine
end

section
/-!
PROOFS. What a tick makes due, and the counters of the station millisecond (R81, R125, R148, R165, R166, R185).
-/
namespace Sys2Proof.Machine
set_option Elab.async false

/-- The ending of a tick before its clock events: the samples, the checks that fall due, the rate window (R185). -/
def tickWindowed (pins : BitVec 8) (s : State) : State :=
  let w := (List.finRange 8).foldl (sampleLine pins) ({ s with now := s.now + 1 }.modPort fun p => { p with duty := 0 })
  windowTick { w with due := w.due ++ dueAtTick w }

/-- A tick up to the port's test (R185). -/
def tickClocked (pins : BitVec 8) (s : State) : State :=
  (countersOf (tickWindowed pins s) .stationMs).foldl clockMs (tickWindowed pins s)

section
variable {s t u : State} {pins : BitVec 8}

/-! ### What falls due (R5, R35, R81, R125, R148) -/

theorem windowTick_eq (s : State) : windowTick s = { s with
    windowStart := if 10 ≤ (s.now - s.windowStart).toNat then s.now else s.windowStart
    due := s.due ++ if 10 ≤ (s.now - s.windowStart).toNat then [.window 0, .window 1] else [] } := by
  unfold windowTick
  by_cases elapsed : 10 ≤ (s.now - s.windowStart).toNat
  · rw [if_pos elapsed, if_pos elapsed]
    exact if_pos elapsed
  · rw [if_neg elapsed, if_neg elapsed, List.append_nil]
    exact if_neg elapsed

theorem exec_stationTick (none : s.due = []) (idle : ∀ n, positionDue s n = false) :
    exec (.stationTick pins) s = .next (portTest (tickClocked pins s)) := by
  have whole : tick pins s = tickBody pins { s with now := s.now + 1 } := by
    unfold tick
    rw [settleMs_nothing none idle]
  have clocked : tickBody pins { s with now := s.now + 1 } = portTest (tickClocked pins s) := by
    have same (u : State) : countersOf (windowTick u) .stationMs = countersOf u .stationMs := by
      rw [windowTick_eq]
      rfl
    unfold tickBody tickClocked tickWindowed
    dsimp only
    rw [same]
  exact congrArg Host.Outcome.next (whole.trans clocked)

/-- What a tick makes due before its clock events: the edges of its samples, the checks, the window (R185). -/
theorem tickWindowed_eq (pins : BitVec 8) (s : State) : ∃ l d, tickWindowed pins s = { s with
      now := s.now + 1
      windowStart := if 10 ≤ (s.now + 1 - s.windowStart).toNat then s.now + 1 else s.windowStart
      lines := l
      due := (d ++ dueAtTick { s with now := s.now + 1 }) ++
        if 10 ≤ (s.now + 1 - s.windowStart).toNat then [.window 0, .window 1] else []
      port := { s.port with duty := 0 } } ∧
    (s.due = [] → (∀ e ∈ d, ∃ n, e = .debounce n) ∧
      ∀ n, l.get n = (s.line n).sample (Level.of (pins.getLsbD n.val)) ∧
        (Due.debounce n ∈ d ↔ (s.line n).edgeFalls (Level.of (pins.getLsbD n.val)))) := by
  obtain ⟨⟨l, d, shape⟩, due⟩ := Sampled.foldl pins (List.finRange 8)
    ({ s with now := s.now + 1 }.modPort fun p => { p with duty := 0 })
  have own (none : s.due = []) (n : LineId) := foldl_sampleLine_line (pins := pins)
    (s := { s with now := s.now + 1 }.modPort fun p => { p with duty := 0 }) none n
  unfold tickWindowed
  generalize (List.finRange 8).foldl (sampleLine pins)
    ({ s with now := s.now + 1 }.modPort fun p => { p with duty := 0 }) = w at shape due own
  subst shape
  refine ⟨l, d, windowTick_eq _, fun none => ⟨fun e he => ?_, own none⟩⟩
  exact (due e he).resolve_left fun old => absurd (none ▸ old) List.not_mem_nil

theorem mem_dueAtTick (e : Due) : e ∈ dueAtTick s ↔
    (∃ lane, lossPassed s lane = true ∧ e = .laneLoss lane) ∨ (∃ v, backstopPassed s v = true ∧ e = .backstop v) ∨
      (∃ v, holdPassed s v = true ∧ e = .hold v) ∨ (∃ a, leasePassed s a = true ∧ e = .lease a) := by
  simp only [dueAtTick, List.mem_append, List.mem_map, List.mem_filter, List.mem_finRange, true_and, or_assoc, eq_comm]

theorem lossPassed_iff {lane : InLaneId} : lossPassed s lane = true ↔
    (s.inLane lane).state = .up ∧ ∃ m, (s.inLane lane).lastArrival = some m ∧
      (s.now - (m + BitVec.ofNat 32 (s.inLane lane).timeout)).toNat < 2 ^ 31 := by
  unfold lossPassed
  cases (s.inLane lane).state with
  | down => simp
  | up =>
    cases (s.inLane lane).lastArrival with
    | none => simp
    | some m => simp [passed, millis]

theorem backstopPassed_iff {v : SvcId} : backstopPassed s v = true ↔
    ∃ d, (s.svc v).backstop = some d ∧ (s.now - d).toNat < 2 ^ 31 := by
  unfold backstopPassed
  cases (s.svc v).backstop with
  | none => simp
  | some d => simp [passed]

theorem holdPassed_iff {v : SvcId} : holdPassed s v = true ↔
    (s.svc v).held = false ∧ ∃ m, (s.svc v).clock = some m ∧ 1048576 ≤ (s.now - m.ms).toNat := by
  unfold holdPassed
  cases (s.svc v).clock with
  | none => simp
  | some m =>
    simp only [Bool.and_eq_true, Bool.not_eq_true', decide_eq_true_iff, Option.some.injEq, exists_eq_left']
    rfl

theorem leasePassed_iff {a : AlertId} : leasePassed s a = true ↔
    (s.alert a).state ≠ .idle ∧ ∃ d, (s.alert a).deadline = some d ∧ (s.now - d).toNat < 2 ^ 31 := by
  unfold leasePassed
  rw [Bool.and_eq_true, live_iff]
  cases (s.alert a).deadline with
  | none => simp
  | some d => simp [passed]

/-! ### The clock events of the station millisecond (R165, R166) -/

/-- A clock event makes nothing due but clock events. -/
theorem clockMs_due {e : Due} (free : ∀ d, e.clocks d = false) (c : CounterId) (s : State) :
    e ∈ (clockMs s c).due ↔ e ∈ s.due := by
  have added {f : Due} (clocks : f.clocks c = true) : e ∈ (s.addDue f).due ↔ e ∈ s.due := by
    have other : e ≠ f := fun same => Bool.false_ne_true ((free c).symm.trans (same ▸ clocks))
    simp [State.addDue, other]
  unfold clockMs
  split
  · exact added (decide_eq_true rfl)
  · rcases clockCounter_cases c s with same | waits | counts
    · rw [same]
    · rw [waits]
      exact added (decide_eq_true rfl)
    · rw [counts]
      rfl

theorem foldl_clockMs_due {e : Due} (free : ∀ d, e.clocks d = false) :
    ∀ (l : List CounterId) (s : State), e ∈ (l.foldl clockMs s).due ↔ e ∈ s.due
  | [], _ => Iff.rfl
  | c :: l, s => (foldl_clockMs_due free l (clockMs s c)).trans (clockMs_due free c s)

theorem clockMs_stopped {c : CounterId} (stopped : (s.counter c).running = false) : clockMs s c = s := by
  unfold clockMs
  rw [stopped]
  exact clockCounter_stopped stopped

theorem clockMs_changing {c : CounterId} (running : (s.counter c).running = true) (changing : gateChanging s c = true) :
    clockMs s c = s.addDue (.pulse c) := by
  unfold clockMs
  rw [running, changing]
  rfl

theorem clockMs_steady {c : CounterId} (steady : gateChanging s c = false) : clockMs s c = clockCounter c s := by
  unfold clockMs
  rw [steady, Bool.and_false]
  rfl

theorem gateChanging_iff {c : CounterId} : gateChanging s c = true ↔
    ∃ n, ((s.counter c).gate = .lineHigh n ∨ (s.counter c).gate = .lineLow n) ∧ Due.debounce n ∈ s.due := by
  unfold gateChanging
  cases (s.counter c).gate with
  | always => simp [Gate.line?]
  | lineHigh m => simp [Gate.line?, isDue_iff]
  | lineLow m => simp [Gate.line?, isDue_iff]

theorem tickClocked_other {c : CounterId} (other : ((tickWindowed pins s).counter c).source ≠ .stationMs) :
    CounterKept c (tickWindowed pins s) (tickClocked pins s) :=
  foldl_untouched (R := CounterKept c) (.refl c) .trans (fun u _ hd => clockMs_kept hd u) (mt mem_countersOf.1 other) _

theorem tickClocked_own {c : CounterId} (own : ((tickWindowed pins s).counter c).source = .stationMs) :
    ∃ u, CounterKept c (tickWindowed pins s) u ∧ CounterKept c (clockMs u c) (tickClocked pins s) :=
  foldl_touched (R := CounterKept c) (f := clockMs) (.refl c) .trans (fun u _ hd => clockMs_kept hd u)
    (countersOf_nodup _ _) (mem_countersOf.2 own) _

theorem tickClocked_eq (pins : BitVec 8) (s : State) :
    ∃ c d, tickClocked pins s = { tickWindowed pins s with counters := c, due := d } := by
  have lines := foldl_lines clockMs_lines (countersOf (tickWindowed pins s) .stationMs) (tickWindowed pins s)
  obtain ⟨l, c, d, changed⟩ := CueOnly.foldl clockMs_cueOnly (countersOf (tickWindowed pins s) .stationMs)
    (tickWindowed pins s)
  refine ⟨c, d, changed.trans ?_⟩
  rw [changed] at lines
  rw [show l = (tickWindowed pins s).lines from lines]

end

end Sys2Proof.Machine
end

section
/-!
PROOFS. The obligations about a tick (R81, R125, R148, R158, R165, R185).
-/
namespace Sys2Proof.Machine
set_option Elab.async false

theorem portTest_due (s : State) : (portTest s).due = s.due := by rw [portTest_phase]
theorem portTest_counter (s : State) (c : CounterId) : (portTest s).counter c = s.counter c := by
  rw [portTest_phase]
  rfl
theorem portTest_line (s : State) (n : LineId) : (portTest s).line n = s.line n := by
  rw [portTest_phase]
  rfl

section
variable {s : State} {pins : BitVec 8}

theorem due_tickClocked {e : Due} (free : ∀ d, e.clocks d = false) :
    e ∈ (tickClocked pins s).due ↔ e ∈ (tickWindowed pins s).due := by
  unfold tickClocked
  generalize tickWindowed pins s = z
  exact foldl_clockMs_due free _ z

theorem lines_tickClocked (pins : BitVec 8) (s : State) : (tickClocked pins s).lines = (tickWindowed pins s).lines := by
  unfold tickClocked
  generalize tickWindowed pins s = z
  exact foldl_lines clockMs_lines _ z

/-- What a tick leaves of the state, all but the cue unit and what is due written out (R185). -/
theorem ticked_eq (pins : BitVec 8) (s : State) : ∃ l c d ph, portTest (tickClocked pins s) = { s with
      now := s.now + 1
      windowStart := if 10 ≤ (s.now + 1 - s.windowStart).toNat then s.now + 1 else s.windowStart
      lines := l, counters := c, due := d, port := { s.port with duty := 0, phase := ph } } := by
  obtain ⟨c, d, clocked⟩ := tickClocked_eq pins s
  obtain ⟨l, e, windowed, -⟩ := tickWindowed_eq pins s
  rw [portTest_phase, clocked, windowed]
  exact ⟨_, _, _, _, rfl⟩

/-- What is due after a tick but for clock events (R185). -/
theorem mem_ticked {e : Due} (none : s.due = []) (free : ∀ d, e.clocks d = false) (noEdge : ∀ n, e ≠ .debounce n) :
    e ∈ (portTest (tickClocked pins s)).due ↔ e ∈ dueAtTick { s with now := s.now + 1 } ∨
      (10 ≤ (s.now + 1 - s.windowStart).toNat ∧ (e = .window 0 ∨ e = .window 1)) := by
  obtain ⟨l, d, windowed, due⟩ := tickWindowed_eq pins s
  obtain ⟨edges, -⟩ := due none
  have notEdge : e ∉ d := fun he => by
    obtain ⟨n, same⟩ := edges e he
    exact noEdge n same
  rw [portTest_due, due_tickClocked free, windowed, List.mem_append, List.mem_append, or_iff_right notEdge]
  refine or_congr Iff.rfl ?_
  by_cases elapsed : 10 ≤ (s.now + 1 - s.windowStart).toNat
  · rw [if_pos elapsed, and_iff_right elapsed, List.mem_pair]
  · rw [if_neg elapsed]
    exact iff_of_false List.not_mem_nil fun ⟨long, _⟩ => elapsed long

/-- The edges that are due after a tick are those of its samples (R159). -/
theorem debounce_ticked {n : LineId} (none : s.due = []) :
    Due.debounce n ∈ (portTest (tickClocked pins s)).due ↔ (s.line n).edgeFalls (Level.of (pins.getLsbD n.val)) := by
  obtain ⟨l, d, windowed, due⟩ := tickWindowed_eq pins s
  obtain ⟨-, own⟩ := due none
  have noCheck : Due.debounce n ∉ dueAtTick { s with now := s.now + 1 } := by simp [mem_dueAtTick]
  have noWindow : Due.debounce n ∉ (if 10 ≤ (s.now + 1 - s.windowStart).toNat then [Due.window 0, .window 1] else []) := by
    split <;> simp
  rw [portTest_due, due_tickClocked fun _ => rfl, windowed, List.mem_append, List.mem_append, or_iff_left noWindow, or_iff_left noCheck]
  exact (own n).2

theorem line_ticked (n : LineId) : (portTest (tickClocked pins s)).line n = (tickWindowed pins s).line n := by
  rw [portTest_line, line_congr (lines_tickClocked pins s)]

theorem counter_windowed (c : CounterId) : (tickWindowed pins s).counter c = s.counter c := by
  obtain ⟨l, d, windowed, -⟩ := tickWindowed_eq pins s
  rw [windowed]
  rfl

/-- No clock event waits before a tick's own (R165). -/
theorem clock_windowed {c : CounterId} (none : s.due = []) : Due.clock c ∉ (tickWindowed pins s).due := by
  obtain ⟨l, d, windowed, due⟩ := tickWindowed_eq pins s
  obtain ⟨edges, -⟩ := due none
  have notEdge : Due.clock c ∉ d := fun he => by
    obtain ⟨n, same⟩ := edges _ he
    cases same
  have noCheck : Due.clock c ∉ dueAtTick { s with now := s.now + 1 } := by simp [mem_dueAtTick]
  have noWindow : Due.clock c ∉ (if 10 ≤ (s.now + 1 - s.windowStart).toNat then [Due.window 0, .window 1] else []) := by
    split <;> simp
  rw [windowed, List.mem_append, List.mem_append]
  exact not_or.2 ⟨not_or.2 ⟨notEdge, noCheck⟩, noWindow⟩

end

/-- Settles O25: nothing is owed, so that the tick is its own body, and each counter sees its own clock event alone. -/
theorem tickCountsTheMillisecond : Obligations.TickCountsTheMillisecond := by
  intro pins s none idle
  have check {e : Due} (free : ∀ d, e.clocks d = false) (noEdge : ∀ n, e ≠ .debounce n) (noWindow : ∀ n, e ≠ .window n) :
      e ∈ (portTest (tickClocked pins s)).due ↔ e ∈ dueAtTick { s with now := s.now + 1 } := by
    rw [mem_ticked none free noEdge]
    exact or_iff_left fun ⟨_, window⟩ => window.elim (noWindow 0) (noWindow 1)
  refine ⟨_, exec_stationTick none idle, ticked_eq pins s, fun lane => ?_, fun v => ?_, fun v => ?_, fun a => ?_,
    fun n => ?_, fun c x counter => ?_⟩
  · rw [check (fun _ => rfl) (fun _ => Due.noConfusion) (fun _ => Due.noConfusion), mem_dueAtTick]
    simp only [Due.laneLoss.injEq, reduceCtorEq, and_false, exists_false, or_false, exists_eq_right', lossPassed_iff]
    rfl
  · rw [check (fun _ => rfl) (fun _ => Due.noConfusion) (fun _ => Due.noConfusion), mem_dueAtTick]
    simp only [Due.backstop.injEq, reduceCtorEq, and_false, exists_false, or_false, false_or, exists_eq_right', backstopPassed_iff]
    rfl
  · rw [check (fun _ => rfl) (fun _ => Due.noConfusion) (fun _ => Due.noConfusion), mem_dueAtTick]
    simp only [Due.hold.injEq, reduceCtorEq, and_false, exists_false, or_false, false_or, exists_eq_right', holdPassed_iff]
    rfl
  · rw [check (fun _ => rfl) (fun _ => Due.noConfusion) (fun _ => Due.noConfusion), mem_dueAtTick]
    simp only [Due.lease.injEq, reduceCtorEq, and_false, exists_false, false_or, exists_eq_right', leasePassed_iff]
    rfl
  · have noCheck : Due.window n ∉ dueAtTick { s with now := s.now + 1 } := by simp [mem_dueAtTick]
    have named : n = 0 ∨ n = 1 := (by decide : ∀ n : OutLaneId, n = 0 ∨ n = 1) n
    rw [mem_ticked none (fun _ => rfl) (fun _ => Due.noConfusion), or_iff_right noCheck, Due.window.injEq, Due.window.injEq]
    exact and_iff_left named
  · subst counter
    have windowed := counter_windowed (s := s) (pins := pins) c
    rw [portTest_counter, portTest_due]
    refine ⟨fun quiet => ?_, ?_⟩
    · by_cases own : (s.counter c).source = .stationMs
      · have stopped : (s.counter c).running = false := quiet.resolve_left (not_not.2 own)
        obtain ⟨u, before, after⟩ := tickClocked_own (s := s) (pins := pins) (c := c) (by rw [windowed]; exact own)
        have counter := before.counter.trans windowed
        rw [after.counter, clockMs_stopped (by rw [counter]; exact stopped), counter]
      · exact (tickClocked_other (by rw [windowed]; exact own)).counter.trans windowed
    · intro source running edgeDue admits
      obtain ⟨u, before, after⟩ := tickClocked_own (s := s) (pins := pins) (c := c) (by rw [windowed]; exact source)
      have counter : u.counter c = s.counter c := before.counter.trans windowed
      have runs : (u.counter c).running = true := by rw [counter]; exact running
      have free : Due.clock c ∉ u.due := mt before.clock.1 (clock_windowed none)
      have changing : edgeDue ↔ gateChanging u c = true := by
        rw [gateChanging_iff, counter]
        have edge (n : LineId) : Due.debounce n ∈ (tickClocked pins s).due ↔ Due.debounce n ∈ u.due :=
          (due_tickClocked fun _ => rfl).trans (before.debounce n).symm
        exact exists_congr fun n => and_congr Iff.rfl (edge n)
      have level (n : LineId) : ((portTest (tickClocked pins s)).line n).debounced = (u.line n).debounced := by
        rw [line_ticked, line_congr before.lines]
      have opens : admits ↔ gateOpen u (u.counter c).gate = true := by
        rw [counter]
        show (match (s.counter c).gate with | .always => _ | .lineHigh n => _ | .lineLow n => _) ↔ _
        cases (s.counter c).gate with
        | always => exact iff_of_true trivial rfl
        | lineHigh n => simp only [level, gateOpen, decide_eq_true_iff]
        | lineLow n => simp only [level, gateOpen, decide_eq_true_iff]
      rw [after.counter, after.pulse, after.clock]
      refine ⟨fun edge => ?_, fun steady => ?_, fun steady admitted more => ?_, fun steady admitted last => ?_⟩
      · rw [clockMs_changing runs (changing.1 edge)]
        exact ⟨counter, List.mem_append_right _ (List.mem_singleton_self _)⟩
      · intro refused
        rw [clockMs_steady (Bool.eq_false_iff.2 (mt changing.2 steady)),
          clockCounter_shut (Bool.eq_false_iff.2 (mt opens.2 refused))]
        exact counter
      · rw [clockMs_steady (Bool.eq_false_iff.2 (mt changing.2 steady)),
          clockCounter_counts runs (opens.1 admitted) (by rw [counter]; exact more) free, State.modCounter_self, counter]
      · rw [clockMs_steady (Bool.eq_false_iff.2 (mt changing.2 steady)),
          clockCounter_waits runs (opens.1 admitted) (by rw [counter]; exact last)]
        exact ⟨counter, List.mem_append_right _ (List.mem_singleton_self _)⟩

/-- Settles O26: each line sees its own sample alone. -/
theorem tickSamplesTheLines : Obligations.TickSamplesTheLines := by
  intro pins n s x level none idle line sampled
  subst line
  have same : level = Level.of (pins.getLsbD n.val) := sampled
  obtain ⟨l, d, windowed, due⟩ := tickWindowed_eq pins s
  obtain ⟨-, own⟩ := due none
  refine ⟨_, exec_stationTick none idle, ?_, ?_⟩
  · rw [debounce_ticked none, same]
    rfl
  · rw [line_ticked, windowed, same]
    exact (own n).1

end Sys2Proof.Machine
end

section
/-!
PROOFS. A network cell of a tracked service, and the end of a break (R23, R24, R33 to R35, R42).
-/
namespace Sys2Proof.Machine
set_option Elab.async false

/-! ### What follows an event of the part -/

theorem CueOnly.followed {s t u : State} (h : CueOnly s t) (k : Followed t u) : Followed s u := by
  obtain ⟨l, c, d, rfl⟩ := h
  obtain ⟨l', c', d', ph, rfl⟩ := k
  exact ⟨l', c', d', ph, rfl⟩

/-- An event of the part that closes at most one event adds nothing of its own. -/
theorem oneEvent_eq {f : State → State} {s t : State} (step : f s = t)
    (log : t.log = s.log ∨ ∃ x, t.log = s.log ++ [x]) : oneEvent f s = t := by
  rcases log with same | ⟨x, entry⟩
  · exact (oneEvent_of_log_eq (by rw [step, same])).trans step
  · exact (oneEvent_of_entry (by rw [step, entry])).trans step

/-- What follows an event of the part that keeps the port's fetch reaches the cue unit and the port's phase. -/
theorem event_followed {f : State → State} {s t : State} (step : f s = t)
    (log : t.log = s.log ∨ ∃ x, t.log = s.log ++ [x]) (fetch : t.port.fetch = s.port.fetch) :
    Followed t (event f s) := by
  have once := oneEvent_eq step log
  unfold event
  rw [once]
  exact finishFrom_followed fetch

theorem clockCell_cueOnly (v : SvcId) (c : Cell) (s : State) : CueOnly s (clockCell v c s) := by
  unfold clockCell
  dsimp only
  split
  · split
    · exact (clockSource_cueOnly _ s).trans (clockSource_cueOnly _ _)
    · exact clockSource_cueOnly _ s
  · split
    · exact clockSource_cueOnly _ s
    · exact CueOnly.refl s

/-- A frame on an UP lane that is a cell of the one ACTIVE route of its tag, which a service uses. -/
structure TrackedCell (s : State) (lane : InLaneId) (bs : List Byte) (c : Cell) (r : RouteId) (v : SvcId) : Prop where
  size : bs.length = 256
  judged : judge bs = some c
  media : c.kind = .media
  up : (s.inLane lane).state = .up
  active : (s.route r).state = .active
  onLane : (s.route r).inLane = lane
  hasTag : (s.route r).inTag = c.tag
  unique : RoutesUnique s
  service : (s.route r).service = some v

/-- Such a cell is handled by the service engine, and the tallies and clock events follow (R10, R161, R165). -/
theorem TrackedCell.followed {s : State} {lane : InLaneId} {bs : List Byte} {c : Cell} {r : RouteId} {v : SvcId}
    (h : TrackedCell s lane bs c r v) (used : (s.svc v).state ≠ .off) {u : State}
    (step : networkCell v r c (s.arrived lane) = u) (log : u.log = s.log ∨ ∃ x, u.log = s.log ++ [x])
    (fetch : u.port.fetch = s.port.fetch) : ∃ t, exec (.cellArrival lane bs) s = .next t ∧ Followed u t := by
  have once : oneEvent (networkCell v r c) (s.arrived lane) = u := oneEvent_eq step log
  have handled : mediaCell r c (s.arrived lane) = clockCell v c (settleTallies u) := by
    unfold mediaCell
    rw [show ((s.arrived lane).route r).service = some v from h.service]
    refine (if_neg (by exact used)).trans ?_
    rw [once]
  have routed : routeCell lane c (s.arrived lane) = clockCell v c (settleTallies u) :=
    (routeCell_media h.media (matchRoute_eq (s := s.arrived lane) h.unique h.active h.onLane h.hasTag)).trans handled
  have cue : CueOnly u (clockCell v c (settleTallies u)) := (settleTallies_cueOnly u).trans (clockCell_cueOnly v c _)
  have port : (clockCell v c (settleTallies u)).port = u.port := by
    obtain ⟨_, _, _, e⟩ := cue
    rw [e]
  obtain ⟨t, result, follows⟩ := arrival_followed h.size h.judged h.up (by rw [routed, port]; exact fetch)
  rw [routed] at follows
  exact ⟨t, result, cue.followed follows⟩

/-! ### The stamps and the disposition of a network cell (R24, R42) -/

theorem Service.track_eq (x : Service) (c : Cell) (now : Ms) :
    x.track c now = { x with
      lastPs := c.ps.or x.lastPs, clock := clockAfter c x.clock now
      held := if c.rs.isSome then false else x.held } := by
  unfold Service.track clockAfter
  cases c.rs <;> rfl

/-- The stamps of a network cell recorded at its arrival (R24). -/
theorem arrived_tracked (s : State) (lane : InLaneId) (v : SvcId) (c : Cell) :
    ((s.arrived lane).modSvc v fun x => x.track c (s.arrived lane).now) = { s.arrived lane with
      services := s.services.put v { s.svc v with
        lastPs := c.ps.or (s.svc v).lastPs, clock := clockAfter c (s.svc v).clock s.now
        held := if c.rs.isSome then false else (s.svc v).held } } :=
  congrArg (fun x => ({ s.arrived lane with services := s.services.put v x } : State))
    (Service.track_eq (s.svc v) c s.now)

theorem givePs_noEvents {v : SvcId} {fresh : Bool} {p : Stamp} {s : State} (none : s.list v = []) :
    givePs v fresh p s = s := by
  have culled : cull v p s = s := by
    unfold cull
    rw [none]
    rfl
  unfold givePs
  rw [culled, ite_self]
  dsimp only
  rw [none]
  rfl

/-- A network cell without a break of a service with an empty schedule list: its stamps, the switching decisions and its
disposition (R23). -/
theorem networkCell_noEvents {v : SvcId} {r : RouteId} {c : Cell} {s : State} (continuous : c.discontinuity = false)
    (none : s.list v = []) :
    networkCell v r c s = dispose v r c (switchStep v c (s.modSvc v fun x => x.track c s.now)) := by
  unfold networkCell
  dsimp only
  rw [continuous]
  cases c.ps with
  | none => rfl
  | some p => exact congrArg (fun u => dispose v r c (switchStep v c u)) (givePs_noEvents none)

/-- The cell joins the FIFO with the network mark, which the FIFO's taking it clears (R42). -/
theorem dispose_forwards {v : SvcId} {r : RouteId} {c : Cell} {s : State}
    (state : (s.svc v).state = .network ∨ (s.svc v).state = .cueing)
    (room : (s.outLane (s.route r).outLane).fifo.length < 256) :
    dispose v r c s = { s with
      services := s.services.put v { s.svc v with networkMark := false }
      outLanes := s.outLanes.put (s.route r).outLane { s.outLane (s.route r).outLane with
        fifo := (s.outLane (s.route r).outLane).fifo ++
          [⟨r, { c with discontinuity := c.discontinuity || (s.svc v).networkMark }⟩] } } := by
  have taken : fifoRoom s (s.route r).outLane = true := decide_eq_true room
  unfold dispose
  dsimp only
  rw [if_pos state, taken]
  unfold offer
  dsimp only
  rw [taken]
  rfl

/-- A cell of a service that carries other material is discarded (R42). -/
theorem dispose_discards {v : SvcId} {r : RouteId} {c : Cell} {s : State}
    (state : ¬((s.svc v).state = .network ∨ (s.svc v).state = .cueing)) : dispose v r c s = s := if_neg state

/-! ### The end of a break (R33, R35) -/

/-- An ACTIVE event closed, and its slot, which one service reads, released (R33, R35, R94). -/
theorem closeEvent_releaseSlot {e : EventId} {v : SvcId} {k : SlotId} {reader : Reader} {s : State} (o : Outcome)
    (f : OutFlags) (active : (s.event e).state = .active) (readers : (s.slot k).readers = [reader])
    (service : reader.svc = v) (nobody : s.waitList = []) (fetch : ∀ f, s.port.fetch = some f → f.slot ≠ k) :
    closeEvent e o f (releaseSlot k s) = { s with
      events := s.events.put e ((s.event e).closedAs o f)
      log := s.log ++ [entryOf e ((s.event e).closedAs o f) o s.now]
      slots := s.slots.put k Slot.reset, services := s.services.put v { s.svc v with slot := none } } := by
  rw [releaseSlot_one readers nobody fetch, service]
  exact closeEvent_live (s := { s with
    slots := s.slots.put k Slot.reset, services := s.services.put v { s.svc v with slot := none } })
    (live_active active) o f

end Sys2Proof.Machine
end

section
/-!
PROOFS. The return point and the backstop of an insertion (R33 to R35).
-/
namespace Sys2Proof.Machine
set_option Elab.async false

theorem finished_iff (x : Slot) : x.finished = decide (x.state = .draining ∧ x.ring = []) := by
  unfold Slot.finished
  rw [Bool.decide_and]
  cases x.ring <;> simp

theorem truncatedIf_union (f : OutFlags) (b : Bool) : f.union (truncatedIf b) = { f with truncated := f.truncated || b } := by
  simp [OutFlags.union, truncatedIf]

theorem isSplice_eq {c : Cell} {p : Stamp} (unit : c.unitStart = true) (splice : c.splicePoint = true)
    (ps : c.ps = some p) : c.isSplice = true := by
  simp [Cell.isSplice, unit, splice, ps]

theorem spliceFrom_eq {c : Cell} {p ref : Stamp} (unit : c.unitStart = true) (splice : c.splicePoint = true)
    (ps : c.ps = some p) (later : (p - ref).toNat < 2 ^ 35) : spliceFrom c ref = true := by
  unfold spliceFrom
  rw [isSplice_eq unit splice ps, ps]
  exact decide_eq_true later

theorem modSvc_of_svc {v : SvcId} {x : Service} {f : Service → Service} {t : State} (h : t.svc v = x) :
    t.modSvc v f = { t with services := t.services.put v (f x) } := by
  rw [← h]
  rfl

section
variable {e : EventId} {v : SvcId} {k : SlotId} {reader : Reader} {o : Outcome} {s : State}

/-- The network mark of a break's switch back (R33). -/
def switchMark (x : Service) (target : Option Stamp) (done : Bool) : Bool :=
  seamOver (seamOf x.lastPs target) x.cfg.seamTolerance || x.returnFlags.truncated || x.returnFlags.forced ||
    x.returnFlags.brk || !done

/-- The switch back of a break whose slot one service reads (R33). -/
theorem adSwitchBack_eq (active : (s.event e).state = .active) (slot : (s.event e).slot = some k)
    (outcome : (s.event e).outcome = some o) (readers : (s.slot k).readers = [reader]) (service : reader.svc = v)
    (nobody : s.waitList = []) (fetch : ∀ f, s.port.fetch = some f → f.slot ≠ k) :
    let noted : Event := { s.event e with
      retPs := (s.svc v).lastPs, seam := seamOf (s.svc v).lastPs (s.event e).tr }
    let closed := noted.closedAs o (truncatedIf (!(s.slot k).finished))
    adSwitchBack v e s = { s with
      events := s.events.put e closed, log := s.log ++ [entryOf e closed o s.now]
      slots := s.slots.put k Slot.reset
      services := s.services.put v (({ s.svc v with slot := none } : Service).toNetwork.setNetworkMark
        (switchMark (s.svc v) (s.event e).tr (s.slot k).finished)) } := by
  intro noted closed
  have released := closeEvent_releaseSlot (s := s.modEvent e fun _ => noted) (e := e) o
    (truncatedIf (!(s.slot k).finished)) (by rw [State.modEvent_self]; exact active) readers service nobody fetch
  rw [State.modEvent_self] at released
  have noting : (s.modEvent e fun y => { y with
      retPs := (s.svc v).lastPs, seam := seamOf (s.svc v).lastPs (s.event e).tr }) = s.modEvent e fun _ => noted := rfl
  unfold adSwitchBack
  dsimp only
  rw [slot, outcome, noting]
  show (closeEvent e o (truncatedIf (!(s.slot k).finished)) (releaseSlot k _)).modSvc v _ = _
  rw [released]
  refine (modSvc_of_svc (x := { s.svc v with slot := none }) (by exact Tbl.get_put_self _ _ _)).trans ?_
  unfold State.modEvent
  dsimp only
  rw [Tbl.put_put, Tbl.put_put]
  rfl

end

theorem returnRef_kept {x : Service} {ref : Stamp} (h : x.returnRef = some ref) (q : Option Stamp) :
    { x with returnRef := x.returnRef.or q } = x := by
  rw [h]
  show { x with returnRef := some ref } = x
  rw [← h]

/-- A splice point at or after the return reference is the return point (R33). -/
theorem returningStep_returns {v : SvcId} {c : Cell} {p ref : Stamp} {s : State}
    (returnRef : (s.svc v).returnRef = some ref) (noPending : (s.svc v).returnPending = false) (ps : c.ps = some p)
    (splice : spliceFrom c ref = true) : returningStep v c s = switchBack v s := by
  unfold returningStep
  dsimp only
  rw [modSvc_eq_self (f := fun x => { x with returnRef := x.returnRef.or c.ps }) (returnRef_kept returnRef c.ps),
    noPending, returnRef, ps]
  exact if_pos splice

theorem switchBack_ad {v : SvcId} {e : EventId} {s : State} (kind : (s.svc v).kind = some .ad)
    (event : (s.svc v).event = some e) : switchBack v s = adSwitchBack v e s := by
  simp only [switchBack, kind, event]

theorem switchStep_returning {v : SvcId} {c : Cell} {s : State} (returning : (s.svc v).state = .returning) :
    switchStep v c s = returningStep v c s := by
  simp only [switchStep, returning]

/-- Settles O22: the cell is tracked, the break ends, and the cell is forwarded. -/
theorem returnPointSwitchesBack : Obligations.ReturnPointSwitchesBack := by
  intro lane bs c r v e k p ref target o s old reader size judged media up active onLane hasTag unique service oldEq
    returning kind event noPending returnRef slotOld noEvents nobody noFetch eventActive eventSlot tr outcome readers
    readerSvc room unitStart splicePoint ps later continuous finished seam closed
  subst oldEq
  have cell : TrackedCell s lane bs c r v := ⟨size, judged, media, up, active, onLane, hasTag, unique, service⟩
  generalize tracking : { s.svc v with
    lastPs := some p, clock := clockAfter c (s.svc v).clock s.now
    held := if c.rs.isSome then false else (s.svc v).held } = x
  have tracked : (s.arrived lane).modSvc v (fun x => x.track c (s.arrived lane).now) =
      { s.arrived lane with services := s.services.put v x } := by
    rw [arrived_tracked, ps, ← tracking]
    rfl
  generalize stateEq : ({ s.arrived lane with services := s.services.put v x } : State) = u at tracked
  have own : u.svc v = x := by
    rw [← stateEq]
    exact Tbl.get_put_self _ _ _
  have switched : switchStep v c u = adSwitchBack v e u := by
    rw [switchStep_returning (by rw [own, ← tracking]; exact returning),
      returningStep_returns (by rw [own, ← tracking]; exact returnRef) (by rw [own, ← tracking]; exact noPending) ps
        (spliceFrom_eq unitStart splicePoint ps later),
      switchBack_ad (by rw [own, ← tracking]; exact kind) (by rw [own, ← tracking]; exact event)]
  have ended := adSwitchBack_eq (s := u) (e := e) (v := v) (k := k) (o := o) (reader := reader)
    (by rw [← stateEq]; exact eventActive) (by rw [← stateEq]; exact eventSlot) (by rw [← stateEq]; exact outcome)
    (by rw [← stateEq]; exact readers) readerSvc (by rw [← stateEq]; exact nobody)
    (fun f fetch => by rw [← stateEq] at fetch; exact nomatch noFetch.symm.trans fetch)
  dsimp only at ended
  rw [own] at ended
  have step : networkCell v r c (s.arrived lane) = dispose v r c (adSwitchBack v e u) := by
    rw [networkCell_noEvents (s := s.arrived lane) continuous noEvents, tracked, switched]
  rw [ended] at step
  generalize after : ({ x with slot := none } : Service).toNetwork.setNetworkMark
    (switchMark x (u.event e).tr (u.slot k).finished) = y at step
  rw [dispose_forwards (.inl (by rw [State.svc, Tbl.get_put_self, ← after]; rfl)) (by rw [← stateEq]; exact room), State.svc, ← stateEq] at step
  dsimp only at step
  rw [Tbl.put_put, Tbl.put_put, Tbl.get_put_self] at step
  obtain ⟨t, result, l, cs, d, ph, shape⟩ := cell.followed (by rw [returning]; decide) step (.inr ⟨_, rfl⟩) rfl
  refine ⟨t, result, ?_⟩
  have done : (s.slot k).finished = finished := finished_iff _
  have lastPs : x.lastPs = some p := by rw [← tracking]
  have closedEq : ({ s.event e with retPs := x.lastPs, seam := seamOf x.lastPs (s.event e).tr } : Event).closedAs o
      (truncatedIf (!(s.slot k).finished)) = closed := by
    rw [lastPs, tr, done]
    unfold Event.closedAs
    dsimp only
    rw [truncatedIf_union, ← outcome]
    rfl
  have mark : (c.discontinuity || y.networkMark) =
      (decide (((s.svc v).cfg.seamTolerance : Int) < |seam|) || (s.svc v).returnFlags.truncated ||
        (s.svc v).returnFlags.forced || (s.svc v).returnFlags.brk || !finished || (s.svc v).networkMark) := by
    have seamEq : seamOver (seamOf x.lastPs (s.event e).tr) x.cfg.seamTolerance =
        decide (((s.svc v).cfg.seamTolerance : Int) < |seam|) := by
      rw [lastPs, tr, ← tracking, ← Int.natCast_natAbs]
      rfl
    have marked : y.networkMark = ((s.svc v).networkMark || switchMark x (s.event e).tr (s.slot k).finished) := by
      rw [← after, ← tracking, ← stateEq]
      rfl
    rw [continuous, Bool.false_or, marked, switchMark, seamEq, done, Bool.or_comm, ← tracking]
  rw [shape]
  refine ⟨?_, congrArg (s.events.put e) closedEq, congrArg (fun z => s.log ++ [entryOf e z o s.now]) closedEq, rfl,
    congrArg (fun b => s.outLanes.put (s.route r).outLane { s.outLane (s.route r).outLane with
      fifo := (s.outLane (s.route r).outLane).fifo ++ [⟨r, { c with discontinuity := b }⟩] }) mark⟩
  have left : { y with networkMark := false } = { x with
      state := .network, kind := none, event := none, slot := none, backstop := none, returnRef := none
      exitPending := false, returnPending := false, returnFlags := ⟨false, false, false⟩, networkMark := false } := by
    rw [← after]
    rfl
  show s.services.put v { y with networkMark := false } = _
  rw [left, ← tracking, ← noPending]

end Sys2Proof.Machine
end

section
/-!
PROOFS. Loss fill (R38), and the backstop of an insertion or a return (R35).
-/
namespace Sys2Proof.Machine
set_option Elab.async false

/-- `find?` finds the lowest entry that satisfies the test. -/
theorem Tbl.find?_eq {α : Type} {n : Nat} {t : Tbl α n} {p : Fin n → α → Bool} {k : Fin n} (holds : p k (t.get k) = true)
    (lowest : ∀ j, j < k → p j (t.get j) = false) : t.find? p = some k := by
  have sorted : (t.indices p).Pairwise (· < ·) := Tbl.idxFrom_sorted p _ _ _
  have mem : k ∈ t.indices p := (Tbl.mem_indices t p k).2 holds
  unfold Tbl.find?
  cases found : t.indices p with
  | nil => exact absurd (found ▸ mem) List.not_mem_nil
  | cons q l =>
    rw [found] at sorted mem
    rcases List.mem_cons.1 mem with same | later
    · exact congrArg some same.symm
    · have below := (List.pairwise_cons.1 sorted).1 k later
      have head : p q (t.get q) = true := (Tbl.mem_indices t p q).1 (found ▸ List.mem_cons_self)
      exact absurd head (Bool.eq_false_iff.1 (lowest q below))

section
variable {v : SvcId} {k : SlotId} {c : ClipId} {s : State}

theorem freeSlot_eq (free : (s.slot k).owner = none) (lowest : ∀ j, j < k → (s.slot j).owner.isSome = true) :
    freeSlot s = some k :=
  Tbl.find?_eq (Option.isNone_iff_eq_none.2 free) fun j hj => Option.isNone_eq_false_iff.2 (lowest j hj)

/-! ### Loss fill (R38) -/

theorem lossFill_none (noClip : (s.svc v).cfg.lossClip = none) :
    lossFill v s = { s with services := s.services.put v { s.svc v with dark := true } } := by
  have unusable : lossClipUsable s v = false := by simp only [lossClipUsable, noClip]
  unfold lossFill
  rw [unusable]
  rfl

theorem lossClipUsable_eq (clip : (s.svc v).cfg.lossClip = some c) (loaded : (s.clip c).state = .loaded) :
    lossClipUsable s v = true := by
  simp only [lossClipUsable, clip, loaded, decide_true]

/-- Loss fill in the lowest FREE slot (R38, R92). -/
theorem lossFill_granted (clip : (s.svc v).cfg.lossClip = some c) (loaded : (s.clip c).state = .loaded)
    (free : (s.slot k).owner = none) (lowest : ∀ j, j < k → (s.slot j).owner.isSome = true) :
    lossFill v s = { s with
      slots := s.slots.put k { Slot.reset with
        owner := some (.loss v), clips := .looped c, unitInt := (s.svc v).cfg.unitInt
        unitFrac := (s.svc v).cfg.unitFrac }
      services := s.services.put v { s.svc v with
        state := .inserting, kind := some .loss, insertMark := true, lossWaiting := false } } := by
  have claimed : claimedSlot s (.loss v) = { Slot.reset with
      owner := some (.loss v), clips := .looped c, unitInt := (s.svc v).cfg.unitInt
      unitFrac := (s.svc v).cfg.unitFrac } := by
    simp only [claimedSlot, sourceOf, unitService, clip, Option.getD_some]
  unfold lossFill
  rw [lossClipUsable_eq clip loaded, freeSlot_eq free lowest, ← claimed]
  rfl

/-- Loss fill with no slot FREE waits, dark, behind the loss fills that wait (R38, R93). -/
theorem lossFill_waits (clip : (s.svc v).cfg.lossClip = some c) (loaded : (s.clip c).state = .loaded)
    (taken : ∀ k, (s.slot k).owner.isSome = true) :
    lossFill v s = { s with
      services := s.services.put v { s.svc v with lossWaiting := true, dark := true }
      waitList := joinLoss v s.waitList } := by
  unfold lossFill
  rw [lossClipUsable_eq clip loaded, freeSlot_none.2 taken]
  rfl

/-! ### A forced return (R34, R35) -/

theorem noteCurrent_ad {e : EventId} (kind : (s.svc v).kind = some .ad) (event : (s.svc v).event = some e)
    (f : OutFlags) : noteCurrent v f s = s.noteFlags e f := by
  simp only [noteCurrent, kind, event]

theorem noteCurrent_other (kind : (s.svc v).kind ≠ some .ad) (f : OutFlags) : noteCurrent v f s = s := by
  unfold noteCurrent
  split
  · next ad _ => exact absurd ad kind
  · rfl

theorem noteCurrent_events (v : SvcId) (f : OutFlags) (s : State) : ∃ E, noteCurrent v f s = { s with events := E } := by
  unfold noteCurrent
  split
  · exact ⟨_, rfl⟩
  · exact ⟨s.events, rfl⟩

/-- The slot whose fetching a forced return stops (R35). -/
def forcedSlot (s : State) (v : SvcId) : Option SlotId :=
  if (s.svc v).state = .inserting ∧ (s.svc v).kind = some .ad then adSlot s v else none

theorem forceReturn_eq (v : SvcId) (s : State) : forceReturn v s = { s with
    events := (noteCurrent v fForcedReturn s).events
    services := s.services.put v { s.svc v with
      state := .returning, returnPending := true, returnFlags := { (s.svc v).returnFlags with forced := true } } } := by
  obtain ⟨E, noted⟩ := noteCurrent_events v fForcedReturn s
  unfold forceReturn
  rw [noted]
  rfl

/-- A passed backstop on an UP lane without a pending return forces the return (R35). -/
theorem backstopStep_forces (active : (s.svc v).state = .inserting ∨ (s.svc v).state = .returning)
    (up : s.laneUp v = true) (noPending : (s.svc v).returnPending = false) :
    backstopStep v s = { s with
      events := (noteCurrent v fForcedReturn s).events, slots := (onSlot (forcedSlot s v) stopFetch s).slots
      services := s.services.put v { s.svc v with
        state := .returning, returnPending := true, returnFlags := { (s.svc v).returnFlags with forced := true }
        backstop := some (returnBackstop s v) } } := by
  have stopped (E : Tbl Event 256) (S : Tbl Service 64) :
      onSlot (forcedSlot s v) stopFetch { s with events := E, services := S } =
        { s with events := E, services := S, slots := (onSlot (forcedSlot s v) stopFetch s).slots } := by
    cases forcedSlot s v with
    | none => rfl
    | some k => rfl
  unfold backstopStep
  dsimp only
  rw [if_pos active, up, noPending, forceReturn_eq]
  refine (if_pos rfl).trans ?_
  refine (congrArg (State.modSvc · v _) (stopped _ _)).trans ?_
  refine (modSvc_of_svc (by exact Tbl.get_put_self _ _ _)).trans ?_
  dsimp only
  rw [Tbl.put_put]

/-! ### A return given up (R35) -/

theorem backstopStep_givesUp (active : (s.svc v).state = .inserting ∨ (s.svc v).state = .returning)
    (forced : s.laneUp v = false ∨ (s.svc v).returnPending = true) : backstopStep v s = giveUp v s := by
  have lost : ¬(s.laneUp v && !(s.svc v).returnPending) = true := by
    rcases forced with down | pending
    · simp [down]
    · simp [pending]
  unfold backstopStep
  dsimp only
  rw [if_pos active, if_neg lost]

theorem setNetworkMark_true (x : Service) : x.setNetworkMark true = { x with networkMark := true } := by
  simp [Service.setNetworkMark]

/-- What a service does when its activity has been given up (R35). -/
def afterGivingUp (v : SvcId) (t : State) : State :=
  if t.laneUp v then t.modSvc v (Service.setNetworkMark true) else lossFill v t

theorem giveUp_ad {e : EventId} (kind : (s.svc v).kind = some .ad) (event : (s.svc v).event = some e) :
    giveUp v s = afterGivingUp v (goNetwork v (closeEvent e ((s.event e).outcome.getD .completed)
      (fSourceLost.union (truncatedIf (!slotDone s (s.event e).slot))) (onSlot (s.event e).slot releaseSlot s))) := by
  simp only [giveUp, kind, event, afterGivingUp]

theorem giveUp_loss (kind : (s.svc v).kind = some .loss) :
    giveUp v s = afterGivingUp v (goNetwork v (dropLossSlot v s)) := by
  simp only [giveUp, kind, afterGivingUp]

theorem giveUp_alert (kind : (s.svc v).kind = some .alert) : giveUp v s = afterGivingUp v (goNetwork v s) := by
  simp only [giveUp, kind, afterGivingUp]

end

end Sys2Proof.Machine
end

section
/-!
PROOFS. The backstop (R35).
-/
namespace Sys2Proof.Machine
set_option Elab.async false

/-- The state in which a step that has fallen due is carried out. -/
def State.taking (s : State) (d : Due) : State := { s with due := s.due.erase d }

section
variable {v : SvcId} {d : Ms} {s : State}

/-- A backstop that is due and has passed is an event of the part (R35). -/
theorem exec_backstop {t : State} (due : Due.backstop v ∈ s.due) (backstop : (s.svc v).backstop = some d)
    (passes : (s.now - d).toNat < 2 ^ 31) (step : backstopStep v (s.taking (.backstop v)) = t)
    (log : t.log = s.log ∨ ∃ x, t.log = s.log ++ [x]) (fetch : t.port.fetch = s.port.fetch) :
    ∃ u, exec (.backstop v) s = .next u ∧ Followed { t with due := s.due } u := by
  have checked : backstopPassed (s.taking (.backstop v)) v = true :=
    backstopPassed_iff.2 ⟨d, backstop, passes⟩
  obtain ⟨l, cs, ds, ph, shape⟩ := event_followed step log fetch
  refine ⟨event (backstopStep v) (s.taking (.backstop v)), ?_, l, cs, ds, ph, shape⟩
  exact congrArg Host.Outcome.next ((takeDue_of_mem due).trans (if_pos checked))

theorem afterGivingUp_up {x : Service} (up : s.laneUp v = true) :
    afterGivingUp v { s with services := s.services.put v x } =
      { s with services := s.services.put v { x with networkMark := true } } := by
  refine (if_pos up).trans ((modSvc_of_svc (x := x) (by exact Tbl.get_put_self _ _ _)).trans ?_)
  dsimp only
  rw [Tbl.put_put, setNetworkMark_true]

/-- A service without a loss clip, just put back, goes dark (R38). -/
theorem lossFill_put {x : Service} (noClip : x.cfg.lossClip = none) :
    lossFill v { s with services := s.services.put v x } =
      { s with services := s.services.put v { x with dark := true } } := by
  have reads : ({ s with services := s.services.put v x } : State).svc v = x := Tbl.get_put_self _ _ _
  refine (lossFill_none (by rw [reads]; exact noClip)).trans ?_
  rw [reads]
  dsimp only
  rw [Tbl.put_put]

theorem afterGivingUp_down {x : Service} (down : s.laneUp v = false) (noClip : x.cfg.lossClip = none) :
    afterGivingUp v { s with services := s.services.put v x } =
      { s with services := s.services.put v { x with dark := true } } :=
  (if_neg (ne_true_of_eq_false (by exact down))).trans (lossFill_put noClip)

theorem afterGivingUp_fills {x : Service} {k : SlotId} {c : ClipId} (down : s.laneUp v = false)
    (clip : x.cfg.lossClip = some c) (loaded : (s.clip c).state = .loaded) (free : (s.slot k).owner = none)
    (lowest : ∀ j, j < k → (s.slot j).owner.isSome = true) :
    afterGivingUp v { s with services := s.services.put v x } = { s with
      slots := s.slots.put k { Slot.reset with
        owner := some (.loss v), clips := .looped c, unitInt := x.cfg.unitInt, unitFrac := x.cfg.unitFrac }
      services := s.services.put v { x with
        state := .inserting, kind := some .loss, insertMark := true, lossWaiting := false } } := by
  have reads : ({ s with services := s.services.put v x } : State).svc v = x := Tbl.get_put_self _ _ _
  refine (if_neg (ne_true_of_eq_false (by exact down))).trans
    ((lossFill_granted (s := { s with services := s.services.put v x }) (by rw [reads]; exact clip) loaded free
      lowest).trans ?_)
  rw [reads]
  dsimp only
  rw [Tbl.put_put]

/-- A break given up: its event closed, its slot released, its service back in NETWORK (R35). -/
theorem giveUp_break {e : EventId} {k : SlotId} {reader : Reader} {o : Outcome} (kind : (s.svc v).kind = some .ad)
    (event : (s.svc v).event = some e) (active : (s.event e).state = .active) (outcome : (s.event e).outcome = some o)
    (slot : (s.event e).slot = some k) (readers : (s.slot k).readers = [reader]) (service : reader.svc = v)
    (nobody : s.waitList = []) (fetch : ∀ f, s.port.fetch = some f → f.slot ≠ k) :
    let closed := (s.event e).closedAs o (fSourceLost.union (truncatedIf (!(s.slot k).finished)))
    giveUp v s = afterGivingUp v { s with
      events := s.events.put e closed, log := s.log ++ [entryOf e closed o s.now]
      slots := s.slots.put k Slot.reset
      services := s.services.put v { backInNetwork (s.svc v) with slot := none } } := by
  intro closed
  rw [giveUp_ad kind event, slot, outcome]
  show afterGivingUp v (goNetwork v (closeEvent e o (fSourceLost.union (truncatedIf (!(s.slot k).finished)))
    (releaseSlot k s))) = _
  rw [closeEvent_releaseSlot o _ active readers service nobody fetch]
  refine congrArg (afterGivingUp v)
    ((modSvc_of_svc (x := { s.svc v with slot := none }) (by exact Tbl.get_put_self _ _ _)).trans ?_)
  dsimp only
  rw [Tbl.put_put]
  rfl

/-- A loss fill given up: its slot released, its service back in NETWORK (R35). -/
theorem goNetwork_dropped {k : SlotId} {reader : Reader} (owned : (s.slot k).owner = some (.loss v))
    (only : ∀ j, j ≠ k → (s.slot j).owner ≠ some (.loss v)) (readers : (s.slot k).readers = [reader])
    (service : reader.svc = v) (nobody : s.waitList = []) (fetch : ∀ f, s.port.fetch = some f → f.slot ≠ k) :
    goNetwork v (dropLossSlot v s) = { s with
      slots := s.slots.put k Slot.reset, services := s.services.put v { backInNetwork (s.svc v) with slot := none } } := by
  have found : lossSlot s v = some k :=
    Tbl.find?_eq (decide_eq_true owned) fun j below => decide_eq_false (only j (Fin.ne_of_lt below))
  unfold dropLossSlot
  rw [found]
  show goNetwork v (releaseSlot k s) = _
  rw [releaseSlot_one readers nobody fetch, service]
  refine (modSvc_of_svc (x := { s.svc v with slot := none }) (by exact Tbl.get_put_self _ _ _)).trans ?_
  dsimp only
  rw [Tbl.put_put]
  rfl

end

/-- Settles O23: the forced return, and the return given up by its kind. -/
theorem backstopForcesTheReturn : Obligations.BackstopForcesTheReturn := by
  intro v d s old oldEq due backstop passes active
  subst oldEq
  refine ⟨fun up noPending => ?_, fun lost => ?_⟩
  · obtain ⟨t, result, l, cs, ds, ph, shape⟩ := exec_backstop due backstop passes
      (backstopStep_forces (s := s.taking (.backstop v)) active up noPending) (.inl rfl) rfl
    refine ⟨t, result, ?_⟩
    rw [shape]
    refine ⟨rfl, rfl, rfl, rfl, fun e kind event => ⟨?_, fun k slot inserting fetching => ?_⟩, fun kind => ⟨?_, ?_⟩⟩
    · show (noteCurrent v fForcedReturn (s.taking (.backstop v))).events = _
      rw [noteCurrent_ad (s := s.taking (.backstop v)) kind event]
      simp [State.noteFlags, State.modEvent, State.taking, State.event, OutFlags.union, fForcedReturn]
    · show (onSlot (forcedSlot (s.taking (.backstop v)) v) stopFetch (s.taking (.backstop v))).slots = _
      have found : forcedSlot (s.taking (.backstop v)) v = some k :=
        (if_pos ⟨inserting, kind⟩).trans ((congrArg (Option.bind · _) event).trans slot)
      rw [found]
      exact congrArg State.slots (stopFetch_fetching (s := s.taking (.backstop v)) fetching)
    · show (noteCurrent v fForcedReturn (s.taking (.backstop v))).events = _
      rw [noteCurrent_other (s := s.taking (.backstop v)) kind]
      rfl
    · have none : forcedSlot (s.taking (.backstop v)) v = none := if_neg fun ⟨_, ad⟩ => kind ad
      show (onSlot (forcedSlot (s.taking (.backstop v)) v) stopFetch (s.taking (.backstop v))).slots = _
      rw [none]
      rfl
  · intro leaves given marked darkened
    have gone {t : State} (step : giveUp v (s.taking (.backstop v)) = t)
        (log : t.log = s.log ∨ ∃ x, t.log = s.log ++ [x]) (fetch : t.port.fetch = s.port.fetch) :
        leaves { t with due := s.due } :=
      exec_backstop due backstop passes ((backstopStep_givesUp (s := s.taking (.backstop v)) active lost).trans step) log fetch
    refine ⟨?_, ?_, ?_⟩
    · intro e k o reader kind event eventActive outcome slot readers service nobody fetch finished closed ended
      have closedEq : (s.event e).closedAs o (fSourceLost.union (truncatedIf (!(s.slot k).finished))) = closed := by
        unfold Event.closedAs
        rw [finished_iff, truncatedIf_union]
        simp only [OutFlags.union, fSourceLost, ← outcome, Bool.or_false, Bool.or_true, Bool.false_or, closed, finished]
      let cleared : State := { s.taking (.backstop v) with
        events := s.events.put e closed, log := s.log ++ [entryOf e closed o s.now], slots := s.slots.put k Slot.reset }
      have step : giveUp v (s.taking (.backstop v)) =
          afterGivingUp v { cleared with services := cleared.services.put v given } := by
        have broken := giveUp_break (s := s.taking (.backstop v)) kind event eventActive outcome slot readers service
          nobody fetch
        dsimp only at broken
        exact broken.trans (congrArg (fun x => afterGivingUp v { s.taking (.backstop v) with
          events := s.events.put e x, log := s.log ++ [entryOf e x o s.now]
          slots := s.slots.put k Slot.reset, services := s.services.put v given }) closedEq)
      refine ⟨fun up => ?_, fun down noClip => ?_, fun c down clip loaded lowest => ?_⟩
      · exact gone (step.trans (afterGivingUp_up (s := cleared) up)) (.inr ⟨_, rfl⟩) rfl
      · exact gone (step.trans (afterGivingUp_down (s := cleared) down noClip)) (.inr ⟨_, rfl⟩) rfl
      · have freed : (cleared.slot k).owner = none := congrArg Slot.owner (Tbl.get_put_self s.slots k Slot.reset)
        have below (j : SlotId) (hj : j < k) : (cleared.slot j).owner.isSome = true := by
          have same : cleared.slot j = s.slot j := Tbl.get_put_ne _ (Fin.ne_of_lt hj) _
          rw [same]
          exact lowest j hj
        have left := gone (step.trans (afterGivingUp_fills (s := cleared) down clip loaded freed below)) (.inr ⟨_, rfl⟩) rfl
        dsimp only [cleared, State.taking] at left
        rw [Tbl.put_put] at left
        exact left
    · intro k reader kind owned only readers service nobody fetch up
      have step := (giveUp_loss (s := s.taking (.backstop v)) kind).trans (congrArg (afterGivingUp v)
        (goNetwork_dropped owned only readers service nobody fetch))
      exact gone (step.trans (afterGivingUp_up (s := { s.taking (.backstop v) with slots := s.slots.put k Slot.reset })
        up)) (.inl rfl) rfl
    · intro kind noSlot
      have back : goNetwork v (s.taking (.backstop v)) = { s.taking (.backstop v) with
          services := s.services.put v given } := by
        have same : (s.svc v).toNetwork = given := by
          simp only [Service.toNetwork, given, backInNetwork, noSlot]
          rfl
        exact congrArg (fun x => { s.taking (.backstop v) with services := s.services.put v x }) same
      have step := (giveUp_alert (s := s.taking (.backstop v)) kind).trans (congrArg (afterGivingUp v) back)
      exact ⟨fun up => gone (step.trans (afterGivingUp_up (s := s.taking (.backstop v)) up)) (.inl rfl) rfl,
        fun down noClip => gone (step.trans (afterGivingUp_down (s := s.taking (.backstop v)) down noClip))
          (.inl rfl) rfl⟩

end Sys2Proof.Machine
end

section
/-!
PROOFS. The exit hunt of a CUEING service: exit, forced exit, rehearsal and the end of the exit window (R26 to R29).
-/
namespace Sys2Proof.Machine
set_option Elab.async false

section
variable {v : SvcId} {e : EventId} {k : SlotId} {c : Cell} {d : Nat} {px splice : Stamp} {forced : Bool} {s : State}

theorem setSplice_set (set : (s.event e).s = some splice) (q : Option Stamp) : setSplice e q s = s :=
  modEvent_eq_self (f := fun x => { x with s := x.s.or q }) (by
    rw [set]
    show { s.event e with s := some splice } = s.event e
    rw [← set])

theorem noteFlags_none (e : EventId) (s : State) : s.noteFlags e {} = s :=
  modEvent_eq_self (f := fun x => { x with flags := x.flags.union {} }) (by rw [OutFlags.union_none])

theorem prefilled_iff (slot : (s.event e).slot = some k) : prefilled s e = decide (8 ≤ (s.slot k).ring.length) := by
  simp only [prefilled, slot]
  rfl

/-! ### The branches of the exit hunt (R26, R28) -/

theorem cueingStep_forced (event : (s.svc v).event = some e) (set : (s.event e).s = some splice)
    (pending : (s.svc v).exitPending = true) :
    cueingStep v c s = takeExit v e (splice + ticks (s.svc v).cfg.exitWindow) true s := by
  unfold cueingStep
  simp only [event]
  rw [setSplice_set set, set]
  exact if_pos pending

theorem cueingStep_exits (event : (s.svc v).event = some e) (set : (s.event e).s = some splice)
    (noPending : (s.svc v).exitPending = false) (ps : c.ps = some px) (point : spliceFrom c splice = true)
    (filled : prefilled s e = true) : cueingStep v c s = takeExit v e px false s := by
  unfold cueingStep
  simp only [event]
  rw [setSplice_set set, set]
  dsimp only
  rw [noPending, point, filled, ps]
  rfl

/-- The end of the exit window, for an event that holds a slot (R28). -/
theorem cueingStep_over (event : (s.svc v).event = some e) (set : (s.event e).s = some splice)
    (noPending : (s.svc v).exitPending = false) (ps : c.ps = some px) (slot : (s.event e).slot = some k)
    (noExit : (spliceFrom c splice && prefilled s e) = false)
    (ended : (px - (splice + ticks (s.svc v).cfg.exitWindow)).toNat < 2 ^ 35) :
    cueingStep v c s =
      if (s.event e).force && prefilled s e then s.modSvc v fun x => { x with exitPending := true }
      else leaveCueing v .missed {} s := by
  have noted : (if spliceFrom c splice = true then s.noteFlags e (noSlotIf (s.event e).slot.isNone) else s) = s := by
    rw [slot]
    refine (congrArg (fun u => if spliceFrom c splice = true then u else s) (noteFlags_none e s)).trans (ite_self s)
  unfold cueingStep
  simp only [event]
  rw [setSplice_set set, set]
  dsimp only
  rw [noPending, noExit, noted, ps]
  refine (if_neg Bool.false_ne_true).trans ((if_neg Bool.false_ne_true).trans ?_)
  dsimp only
  rw [if_pos (show windowOver (s.svc v).cfg splice px = true from decide_eq_true ended), slot]
  rfl

/-! ### The exit (R27, R29) -/

/-- The insertion length D: the event's duration, or the feed total of its clips (R27, R73). -/
theorem insertionLength_eq (length : (s.event e).duration = some d ∨ ((s.event e).duration = none ∧
    d = (feedTotal (s.slot k).unitInt (s.slot k).unitFrac ((s.event e).clips.map s.clip)).toNat)) :
    insertionLength s e (some k) = d := by
  rcases length with given | ⟨absent, total⟩
  · simp only [insertionLength, given]
  · simp only [insertionLength, absent, total]

/-- The exit of a break (R27, R28). -/
theorem takeExit_break (slot : (s.event e).slot = some k) (noRehearsal : (s.event e).rehearse = false)
    (length : insertionLength s e (some k) = d) :
    takeExit v e px forced s = { s with
      services := s.services.put v { s.svc v with
        backstop := some (backstopAt s.now (d + (s.svc v).cfg.returnWindow)), base := px, state := .inserting
        kind := some .ad, exitPending := false, insertMark := (s.svc v).insertMark || forced
        slot := some k, shedLevel := 0, shedPattern := 0, lateness := 0 }
      events := s.events.put e { s.event e with
        px := some px, tr := some (px + ticks d), state := .active, outcome := some .completed
        flags := (s.event e).flags.union { forcedExit := forced } }
      slots := s.slots.put k { s.slot k with
        readers := (s.slot k).readers ++ [⟨v, (s.slot k).tail, .none⟩], exitMs := some s.now } } := by
  unfold takeExit
  dsimp only
  rw [noRehearsal, slot, length]
  refine (if_neg Bool.false_ne_true).trans ?_
  unfold breakExit
  dsimp only
  rw [show ((recordExit e px d forced s).event e).slot = some k by
    rw [recordExit, State.modEvent_self]
    exact slot]
  simp only [onSlot, attach, recordExit, State.modSvc, State.modEvent, State.modSlot, State.svc, State.event, State.slot,
    Tbl.put_put, Tbl.get_put_self]
  rw [show (s.events.get e).slot = some k from slot, show (s.events.get e).rehearse = false from noRehearsal]

/-- The exit of a rehearsal (R29). -/
theorem takeExit_rehearsal (slot : (s.event e).slot = some k) (rehearsal : (s.event e).rehearse = true)
    (cueing : (s.event e).state = .cueing) (length : insertionLength s e (some k) = d) (alone : ReleasedAlone s k) :
    let closed : Event := { s.event e with
      px := some px, tr := some (px + ticks d), state := .completed, outcome := some .completed, slot := none
      flags := ((s.event e).flags.union { forcedExit := forced }).union fRehearsed }
    takeExit v e px forced s = { s with
      services := s.services.put v (backInNetwork (s.svc v)), events := s.events.put e closed
      log := s.log ++ [entryOf e closed .completed s.now], slots := s.slots.put k Slot.reset } := by
  intro closed
  have live : ((recordExit e px d forced s).event e).live = true := by
    rw [recordExit, State.modEvent_self]
    exact live_cueing cueing
  have close := closeEvent_live live .completed fRehearsed
  have same : ((recordExit e px d forced s).event e).closedAs .completed fRehearsed = closed := by
    rw [recordExit, State.modEvent_self]
    rfl
  rw [same] at close
  unfold takeExit
  dsimp only
  rw [rehearsal, slot, length]
  refine (if_pos rfl).trans ?_
  unfold rehearsalExit
  dsimp only
  rw [show ((recordExit e px d forced s).event e).slot = some k by
    rw [recordExit, State.modEvent_self]
    exact slot, close]
  refine (releaseSlot_alone (by exact alone)).trans ?_
  simp only [goNetwork, recordExit, State.modSvc, State.modEvent, Tbl.put_put]
  rfl

end

/-! ### The whole cell -/

/-- The disposition of a cell whose service has just been changed (R42). -/
theorem dispose_put {v : SvcId} {r : RouteId} {c : Cell} {s : State} {x : Service}
    (state : x.state = .network ∨ x.state = .cueing) (room : (s.outLane (s.route r).outLane).fifo.length < 256) :
    dispose v r c { s with services := s.services.put v x } = { s with
      services := s.services.put v { x with networkMark := false }
      outLanes := s.outLanes.put (s.route r).outLane { s.outLane (s.route r).outLane with
        fifo := (s.outLane (s.route r).outLane).fifo ++
          [⟨r, { c with discontinuity := c.discontinuity || x.networkMark }⟩] } } := by
  have reads : ({ s with services := s.services.put v x } : State).svc v = x := Tbl.get_put_self _ _ _
  rw [dispose_forwards (by rw [reads]; exact state) (by exact room), reads]
  dsimp only
  rw [Tbl.put_put]
  rfl

end Sys2Proof.Machine
end

section
/-!
PROOFS. The exit of a break at its exit point (O21).
-/
namespace Sys2Proof.Machine
set_option Elab.async false

theorem switchStep_cueing {v : SvcId} {c : Cell} {s : State} (cueing : (s.svc v).state = .cueing) :
    switchStep v c s = cueingStep v c s := by
  simp only [switchStep, cueing]

/-- Settles O21: the cell is tracked, the exit hunt takes one of its branches, and the cell goes on or not. -/
theorem exitPointSwitchesToTheRing : Obligations.ExitPointSwitchesToTheRing := by
  intro lane bs c r v e k splice d s old size judged media up active onLane hasTag unique service oldEq cueing event
    noEvents set slot continuous length tracked leaves forwarded ends exitPoint windowEnd
  subst oldEq
  have cell : TrackedCell s lane bs c r v := ⟨size, judged, media, up, active, onLane, hasTag, unique, service⟩
  have used : (s.svc v).state ≠ .off := by
    rw [cueing]
    decide
  let u : State := { s.arrived lane with services := s.services.put v tracked }
  have own : u.svc v = tracked := Tbl.get_put_self _ _ _
  have tracking : (s.arrived lane).modSvc v (fun x => x.track c (s.arrived lane).now) = u := arrived_tracked s lane v c
  have handled : networkCell v r c (s.arrived lane) = dispose v r c (cueingStep v c u) := by
    rw [networkCell_noEvents (s := s.arrived lane) continuous noEvents, tracking,
      switchStep_cueing (by rw [own]; exact cueing)]
  have total : insertionLength u e (some k) = d := insertionLength_eq (s := u) length
  have ownEvent : (u.svc v).event = some e := by
    rw [own]
    exact event
  have exits (px : Stamp) (forced : Bool) (taken : cueingStep v c u = takeExit v e px forced u)
      (noRehearsal : (s.event e).rehearse = false) : leaves px forced := by
    have left := takeExit_break (v := v) (px := px) (forced := forced) (s := u) slot noRehearsal total
    rw [own] at left
    dsimp only [u] at left
    rw [Tbl.put_put] at left
    have step := handled.trans ((congrArg (dispose v r c) (taken.trans left)).trans (dispose_discards (by
      rw [State.svc, Tbl.get_put_self]
      exact fun h => h.elim nofun nofun)))
    obtain ⟨t, result, l, cs, ds, ph, shape⟩ := cell.followed used step (.inl rfl) rfl
    refine ⟨t, result, ?_⟩
    rw [shape]
    refine ⟨rfl, ?_, rfl, rfl, rfl⟩
    simp [OutFlags.union]
    rfl
  have goesOn {x : Service} {w : State} (taken : cueingStep v c u = { w with
      services := w.services.put v x })
      (state : x.state = .network ∨ x.state = .cueing) (mark : x.networkMark = (s.svc v).networkMark)
      (room : (s.outLane (s.route r).outLane).fifo.length < 256) (routes : w.routes = s.routes)
      (outLanes : w.outLanes = s.outLanes) (services : w.services = u.services) (port : w.port = s.port)
      (log : w.log = s.log ∨ ∃ x, w.log = s.log ++ [x]) :
      ∃ t, forwarded x t ∧ t.events = w.events ∧ t.slots = w.slots ∧ t.log = w.log := by
    have route : w.route = s.route := funext fun i => congrArg (Tbl.get · i) routes
    have outLane : w.outLane = s.outLane := funext fun i => congrArg (Tbl.get · i) outLanes
    have step := handled.trans ((congrArg (dispose v r c) taken).trans (dispose_put state (by
      rw [route, outLane]
      exact room)))
    obtain ⟨t, result, l, cs, ds, ph, shape⟩ := cell.followed used step log (congrArg Port.fetch port)
    refine ⟨t, ⟨result, ?_, ?_⟩, ?_, ?_, ?_⟩
    · rw [shape]
      show w.services.put v { x with networkMark := false } = _
      rw [services]
      exact Tbl.put_put _ _ _ _
    · rw [shape]
      show w.outLanes.put (w.route r).outLane _ = _
      rw [route, outLane, outLanes, mark, continuous, Bool.false_or]
    · rw [shape]
    · rw [shape]
    · rw [shape]
  have closes (p : Stamp) (noPending : (s.svc v).exitPending = false) (ps : c.ps = some p)
      (ended : (p - windowEnd).toNat < 2 ^ 35) (noExit : (spliceFrom c splice && prefilled u e) = false) :
      cueingStep v c u = if (s.event e).force && prefilled u e then u.modSvc v fun x => { x with exitPending := true }
        else leaveCueing v .missed {} u :=
    cueingStep_over (s := u) ownEvent set (by rw [own]; exact noPending) ps slot noExit (by rw [own]; exact ended)
  have filled : prefilled u e = decide (8 ≤ (s.slot k).ring.length) := prefilled_iff (s := u) slot
  have noPoint (noSplice : c.splicePoint = false) : spliceFrom c splice = false := by
    simp [spliceFrom, Cell.isSplice, noSplice]
  refine ⟨fun p point noRehearsal => ?_, fun pending noRehearsal => ?_, fun alone room => ⟨?_, ?_⟩, ?_⟩
  · obtain ⟨noPending, full, unitStart, splicePoint, ps, later⟩ := point
    exact exits p false (cueingStep_exits (s := u) ownEvent set (by rw [own]; exact noPending) ps
      (spliceFrom_eq unitStart splicePoint ps later) (filled.trans (decide_eq_true full))) noRehearsal
  · refine exits windowEnd true ((cueingStep_forced (s := u) ownEvent set (by rw [own]; exact pending)).trans ?_) noRehearsal
    rw [own]
    rfl
  · intro p point rehearsal eventCueing
    obtain ⟨noPending, full, unitStart, splicePoint, ps, later⟩ := point
    have taken := (cueingStep_exits (s := u) ownEvent set (by rw [own]; exact noPending) ps
      (spliceFrom_eq unitStart splicePoint ps later) (filled.trans (decide_eq_true full))).trans
      (takeExit_rehearsal (s := u) slot rehearsal eventCueing total alone)
    dsimp only at taken
    rw [own] at taken
    dsimp only [u] at taken
    rw [Tbl.put_put] at taken
    obtain ⟨t, sent, events, slots, log⟩ := goesOn (w := { u with
      events := s.events.put e _, log := s.log ++ [_], slots := s.slots.put k Slot.reset })
      (x := backInNetwork tracked) (taken.trans (by rw [Tbl.put_put]; rfl)) (.inl rfl) rfl room rfl rfl rfl rfl (.inr ⟨_, rfl⟩)
    refine ⟨t, sent, events.trans ?_, log.trans ?_, slots⟩
    · simp [OutFlags.union, fRehearsed]
      rfl
    · simp [OutFlags.union, fRehearsed]
      rfl
  · intro p noPending ps ended few eventCueing eventService
    have noExit : (spliceFrom c splice && prefilled u e) = false := by
      rcases few with less | ⟨noSplice, -⟩
      · rw [filled, decide_eq_false (Nat.not_le.2 less), Bool.and_false]
      · rw [noPoint noSplice, Bool.false_and]
    have noForce : ((s.event e).force && prefilled u e) = false := by
      rcases few with less | ⟨-, noForce⟩
      · rw [filled, decide_eq_false (Nat.not_le.2 less), Bool.and_false]
      · rw [noForce, Bool.false_and]
    have taken := closes p noPending ps ended noExit
    rw [noForce] at taken
    have left : leaveCueing v .missed {} u = endCueing e .missed {} u := by
      simp only [leaveCueing, ownEvent]
    have gone := (taken.trans left).trans (endCueing_alone (s := u) .missed {} eventCueing slot eventService alone)
    rw [own] at gone
    obtain ⟨t, sent, events, slots, log⟩ := goesOn (w := { u with
      events := s.events.put e _, log := s.log ++ [_], slots := s.slots.put k Slot.reset })
      (x := backInNetwork tracked) gone (.inl rfl) rfl room rfl rfl rfl rfl (.inr ⟨_, rfl⟩)
    have closed : (u.event e).closedAs .missed {} = { s.event e with
        state := .missed, outcome := some .missed, slot := none } := by
      unfold Event.closedAs
      rw [OutFlags.union_none]
      rfl
    exact ⟨t, sent, events.trans (congrArg (s.events.put e) closed),
      log.trans (congrArg (fun x => s.log ++ [entryOf e x .missed s.now]) closed), slots⟩
  · intro p noPending ps ended noSplice force full room
    have taken := closes p noPending ps ended (by rw [noPoint noSplice, Bool.false_and])
    rw [force, filled, decide_eq_true full] at taken
    obtain ⟨t, sent, events, slots, log⟩ := goesOn (w := u) (x := { tracked with exitPending := true })
      (taken.trans (by rw [← own]; rfl)) (.inr cueing) rfl room rfl rfl rfl rfl (.inl rfl)
    exact ⟨t, sent, events, slots, log⟩

end Sys2Proof.Machine
end

section
/-!
PROOFS. A network PS and the schedule list of one event (R49 to R52, R60).
-/
namespace Sys2Proof.Machine
set_option Elab.async false

/-! ### The stamps of a cell, after a timeline break or without one (R24, R36) -/

/-- A service whose clock model and network PS a timeline break has made absent (R36). -/
def brokenSvc (c : Cell) (x : Service) : Service :=
  if c.discontinuity then { x.dropClock with lastPs := none } else x

theorem brokenSvc_track (c : Cell) (x : Service) (now : Ms) : (brokenSvc c x).track c now = { x with
    lastPs := c.ps.or (if c.discontinuity then none else x.lastPs)
    clock := clockAfter c (if c.discontinuity then none else x.clock) now
    held := if c.rs.isSome ∨ c.discontinuity then false else x.held } := by
  rw [Service.track_eq]
  unfold brokenSvc
  cases c.discontinuity with
  | true => cases c.rs <;> rfl
  | false => cases c.rs <;> rfl

section
variable {v : SvcId} {r : RouteId} {c : Cell} {s : State}

/-- A break of a service without an activity, and no break, leave everything but its stamps (R36). -/
theorem break_eq (idle : c.discontinuity = false ∨ (s.svc v).state = .network) :
    (if c.discontinuity then breakStep v s else s) = { s with services := s.services.put v (brokenSvc c (s.svc v)) } := by
  unfold brokenSvc
  cases broken : c.discontinuity with
  | false => exact (modSvc_eq_self (f := id) rfl).symm
  | true =>
    have network := idle.resolve_left (by rw [broken]; decide)
    refine (if_pos rfl).trans ?_
    simp only [breakStep, network]
    rfl

/-- A network cell of a service with no activity or without a break (R23). -/
theorem networkCell_tracks {p : Stamp} (idle : c.discontinuity = false ∨ (s.svc v).state = .network)
    (ps : c.ps = some p) : networkCell v r c s = dispose v r c (switchStep v c (givePs v
      (brokenSvc c (s.svc v)).lastPs.isNone p
      { s with services := s.services.put v ((brokenSvc c (s.svc v)).track c s.now) })) := by
  unfold networkCell
  dsimp only
  rw [break_eq idle, ps]
  unfold State.modSvc State.svc
  dsimp only
  rw [Tbl.get_put_self, Tbl.put_put]

/-- A network cell of a service without an activity and an empty list (R23). -/
theorem networkCell_network (network : (s.svc v).state = .network) (noEvents : s.list v = []) :
    networkCell v r c s = dispose v r c
      { s with services := s.services.put v ((brokenSvc c (s.svc v)).track c s.now) } := by
  have still (x : Service) (state : x.state = .network) :
      switchStep v c { s with services := s.services.put v x } = { s with services := s.services.put v x } := by
    have reads : ({ s with services := s.services.put v x } : State).svc v = x := Tbl.get_put_self _ _ _
    simp only [switchStep, reads, state]
  have tracked : ((brokenSvc c (s.svc v)).track c s.now).state = .network := by
    rw [brokenSvc_track]
    exact network
  cases ps : c.ps with
  | some p =>
    rw [networkCell_tracks (.inr network) ps, givePs_noEvents (by exact noEvents), still _ tracked]
  | none =>
    unfold networkCell
    dsimp only
    rw [break_eq (.inr network), ps]
    unfold State.modSvc State.svc
    dsimp only
    rw [Tbl.get_put_self, Tbl.put_put]
    exact congrArg (dispose v r c) (still _ tracked)

end

/-! ### A SCHEDULED event leaves its list (R25, R49, R50, R92, R93) -/

section
variable {v : SvcId} {e : EventId} {k : SlotId} {s : State}

/-- The schedule lists once an event has left the one of its service. -/
def schedWithout (s : State) (v : SvcId) (e : EventId) : Tbl (List EventId) 64 :=
  s.sched.put v ((s.list v).filter fun y => decide (y ≠ e))

theorem schedWithout_only (only : s.list v = [e]) : schedWithout s v e = s.sched.put v [] := by
  unfold schedWithout
  rw [only]
  simp

theorem closeScheduled_eq (scheduled : (s.event e).state = .scheduled) (service : (s.event e).service = v)
    (o : Outcome) (f : OutFlags) : closeScheduled e o f s = { s with
      sched := schedWithout s v e, events := s.events.put e ((s.event e).closedAs o f)
      log := s.log ++ [entryOf e ((s.event e).closedAs o f) o s.now] } := by
  rw [← service]
  exact closeEvent_live (s := leaveList e s) (live_scheduled scheduled) o f

/-- A SCHEDULED event cued with the lowest FREE slot (R25, R49, R92). -/
theorem cue_granted (service : (s.event e).service = v) (free : (s.slot k).owner = none)
    (lowest : ∀ j, j < k → (s.slot j).owner.isSome = true) : cue v e s = { s with
      sched := schedWithout s v e
      services := s.services.put v { s.svc v with state := .cueing, event := some e, exitPending := false }
      events := s.events.put e { s.event e with state := .cueing, slot := some k }
      slots := s.slots.put k { Slot.reset with
        owner := some (.event e), clips := .list (s.event e).clips, unitInt := (s.svc v).cfg.unitInt
        unitFrac := (s.svc v).cfg.unitFrac } } := by
  unfold cue
  dsimp only
  rw [freeSlot_eq (k := k) (by exact free) (by exact lowest)]
  simp only [leaveList, claimSlot, claimedSlot, sourceOf, unitService, State.modEvent, State.modSvc, State.modSlot,
    State.setList, State.event, State.svc, Tbl.put_put, Tbl.get_put_self, schedWithout]
  rw [show (s.events.get e).service = v from service, Tbl.get_put_self]

/-- A SCHEDULED event cued with no slot FREE waits at the tail (R25, R49, R93). -/
theorem cue_waits (service : (s.event e).service = v) (taken : ∀ k, (s.slot k).owner.isSome = true) :
    cue v e s = { s with
      sched := schedWithout s v e
      services := s.services.put v { s.svc v with state := .cueing, event := some e, exitPending := false }
      events := s.events.put e { s.event e with state := .cueing }, waitList := s.waitList ++ [.event e] } := by
  unfold cue
  dsimp only
  rw [freeSlot_none.2 (by exact taken)]
  rw [← service]
  rfl

end

/-! ### One event judged against a network PS (R49 to R52, R60) -/

section
variable {v : SvcId} {e : EventId} {p splice : Stamp} {s : State}

theorem judgeHeads_waits (set : (s.event e).s = some splice) (early : inDueWindow (s.svc v).cfg splice p = false)
    (inTime : windowOver (s.svc v).cfg splice p = false) : judgeHeads v p [e] s = s := by
  unfold judgeHeads
  rw [set]
  dsimp only
  rw [early, inTime]
  rfl

theorem judgeHeads_over (set : (s.event e).s = some splice) (late : inDueWindow (s.svc v).cfg splice p = false)
    (ended : windowOver (s.svc v).cfg splice p = true) :
    judgeHeads v p [e] s = closeScheduled e .missed (busyFlags (s.svc v)) s := by
  unfold judgeHeads
  rw [set]
  dsimp only
  rw [late, ended]
  rfl

theorem judgeHeads_gone (set : (s.event e).s = some splice) (due : inDueWindow (s.svc v).cfg splice p = true)
    (gone : clipsGone s e = true) : judgeHeads v p [e] s = closeScheduled e .missed fStoreFault s := by
  unfold judgeHeads
  rw [set]
  dsimp only
  rw [due, gone]
  rfl

theorem judgeHeads_cues (set : (s.event e).s = some splice) (due : inDueWindow (s.svc v).cfg splice p = true)
    (kept : clipsGone s e = false) (network : (s.svc v).state = .network) (up : s.laneUp v = true) :
    judgeHeads v p [e] s = cue v e s := by
  unfold judgeHeads
  rw [set]
  dsimp only
  rw [due, kept, up]
  exact if_pos network

theorem judgeHeads_busy (set : (s.event e).s = some splice) (due : inDueWindow (s.svc v).cfg splice p = true)
    (kept : clipsGone s e = false) (busy : (s.svc v).state ≠ .network) : judgeHeads v p [e] s = s := by
  unfold judgeHeads
  rw [set]
  dsimp only
  rw [due, kept]
  exact if_neg busy

theorem givePs_known (p : Stamp) : givePs v false p s = judgeHeads v p (s.list v) s := rfl

/-- The cull of a list of one event that the new timebase does not keep (R60). -/
theorem givePs_culls (only : s.list v = [e]) (scheduled : (s.event e).state = .scheduled)
    (service : (s.event e).service = v) (dropped : keptByCull s p e = false) :
    givePs v true p s = closeScheduled e .missed fTimelineBreak s := by
  have culled : cull v p s = closeScheduled e .missed fTimelineBreak s := by
    unfold cull
    rw [only]
    simp [dropped]
  have empty : (closeScheduled e .missed fTimelineBreak s).list v = [] := by
    rw [closeScheduled_eq scheduled service, schedWithout_only only]
    exact Tbl.get_put_self _ _ _
  unfold givePs
  rw [if_pos rfl]
  dsimp only
  rw [culled, empty]
  rfl

theorem clipsGone_of_free (gone : ∃ c ∈ (s.event e).clips, (s.clip c).state = .free) : clipsGone s e = true := by
  obtain ⟨c, named, free⟩ := gone
  exact List.any_eq_true.2 ⟨c, named, decide_eq_true free⟩

theorem clipsGone_of_loaded (loaded : ∀ c ∈ (s.event e).clips, (s.clip c).state = .loaded) : clipsGone s e = false :=
  List.any_eq_false.2 fun c named => by simp [loaded c named]

end

end Sys2Proof.Machine
end

section
/-!
PROOFS. A network cell judged for one scheduled event (O20).
-/
namespace Sys2Proof.Machine
set_option Elab.async false

section
variable {v : SvcId} {e : EventId} {c : Cell} {s : State}

theorem switchStep_network (state : (s.svc v).state = .network) : switchStep v c s = s := by
  simp only [switchStep, state]

theorem switchStep_alert (state : (s.svc v).state = .alert) : switchStep v c s = s := by
  simp only [switchStep, state]

/-- An INSERTING service before its return target goes on inserting (R31). -/
theorem switchStep_inserting {p : Stamp} (state : (s.svc v).state = .inserting) (ps : c.ps = some p)
    (early : ∀ g target, (s.svc v).event = some g → (s.event g).tr = some target → 2 ^ 35 ≤ (p - target).toNat) :
    switchStep v c s = s := by
  have waits : insertingStep v c s = s := by
    unfold insertingStep
    split
    · next g q _ event cellPs =>
      split
      · next target tr =>
        have same : q = p := Option.some.inj (cellPs.symm.trans ps)
        subst same
        exact if_neg (ne_true_of_eq_false (decide_eq_false (Nat.not_lt.2 (early g target event tr))))
      · rfl
    · rfl
  simp only [switchStep, state]
  exact waits

/-- A CUEING service whose event has no cells to exit with, before the end of the exit window (R26, R28). -/
theorem cueingStep_waits {p splice : Stamp} (event : (s.svc v).event = some e) (set : (s.event e).s = some splice)
    (noPending : (s.svc v).exitPending = false) (ps : c.ps = some p) (unfilled : prefilled s e = false)
    (inTime : windowOver (s.svc v).cfg splice p = false) :
    cueingStep v c s =
      if spliceFrom c splice = true then s.noteFlags e (noSlotIf (s.event e).slot.isNone) else s := by
  unfold cueingStep
  simp only [event]
  rw [setSplice_set set, set]
  dsimp only
  rw [noPending, unfilled, Bool.and_false, ps]
  refine (if_neg Bool.false_ne_true).trans ((if_neg Bool.false_ne_true).trans ?_)
  dsimp only
  rw [inTime]
  exact if_neg Bool.false_ne_true

end

/-- The due window and its end exclude each other (R49, R50). -/
theorem not_both_sides {a b : Stamp} (h : (a - b).toNat < 2 ^ 35) (k : (b - a).toNat < 2 ^ 35) : a = b := by
  bv_omega

/-- Settles O20: the cell is tracked, its PS judges the scheduled event, and the cell goes on or not. -/
theorem networkCellIsTrackedAndForwarded : Obligations.NetworkCellIsTrackedAndForwarded := by
  intro lane bs c r v s old size judged media up active onLane hasTag unique service oldEq room tracked forwarded
  subst oldEq
  have cell : TrackedCell s lane bs c r v := ⟨size, judged, media, up, active, onLane, hasTag, unique, service⟩
  have trackedEq : (brokenSvc c (s.svc v)).track c s.now = tracked := brokenSvc_track c (s.svc v) s.now
  refine ⟨fun network noEvents => ?_, ?_⟩
  · have step := (networkCell_network (s := s.arrived lane) (r := r) (c := c) network noEvents).trans
      ((congrArg (fun x => dispose v r c { s.arrived lane with services := s.services.put v x }) trackedEq).trans
        (dispose_put (s := s.arrived lane) (.inl network) room))
    obtain ⟨t, result, l, cs, ds, ph, shape⟩ := cell.followed (by rw [network]; decide) step (.inl rfl) rfl
    refine ⟨t, result, ?_⟩
    rw [shape]
    exact ⟨rfl, rfl, rfl, rfl, rfl, rfl, rfl⟩
  · intro e x p splice only xEq scheduled ofService set ps start close inWindow arrived sent missed leaves
    subst xEq
    let u : State := { s.arrived lane with services := s.services.put v tracked }
    have own : u.svc v = tracked := Tbl.get_put_self _ _ _
    have handled (idle : c.discontinuity = false ∨ (s.svc v).state = .network) : networkCell v r c (s.arrived lane) =
        dispose v r c (switchStep v c (givePs v (brokenSvc c (s.svc v)).lastPs.isNone p u)) :=
      (networkCell_tracks (s := s.arrived lane) idle ps).trans
        (congrArg (fun x => dispose v r c (switchStep v c (givePs v (brokenSvc c (s.svc v)).lastPs.isNone p
          { s.arrived lane with services := s.services.put v x }))) trackedEq)
    have sends {y : Service} {w : State} {b : Bool} (network : (s.svc v).state = .network)
        (lastPs : (brokenSvc c (s.svc v)).lastPs.isNone = b)
        (judged : switchStep v c (givePs v b p u) = { w with services := s.services.put v y })
        (state : y.state = .network ∨ y.state = .cueing) (mark : y.networkMark = (s.svc v).networkMark)
        (frame : w.route = s.route ∧ w.outLane = s.outLane ∧ w.outLanes = s.outLanes)
        (log : w.log = s.log ∨ ∃ x, w.log = s.log ++ [x]) (fetch : w.port.fetch = s.port.fetch) :
        leaves { w with services := s.services.put v { y with networkMark := false }, outLanes := forwarded } := by
      obtain ⟨route, outLane, outLanes⟩ := frame
      have disposed := dispose_put (v := v) (r := r) (c := c) (s := { w with services := s.services }) state (by
        rw [show State.outLane { w with services := s.services } = s.outLane from outLane,
          show State.route { w with services := s.services } = s.route from route]
        exact room)
      have step := (handled (.inr network)).trans
        ((congrArg (fun b => dispose v r c (switchStep v c (givePs v b p u))) lastPs).trans
          ((congrArg (dispose v r c) judged).trans disposed))
      rw [show State.outLane { w with services := s.services } = s.outLane from outLane,
        show State.route { w with services := s.services } = s.route from route, mark] at step
      dsimp only at step
      rw [outLanes] at step
      exact cell.followed (by rw [network]; decide) step log fetch
    have keeps {w : State} (used : (s.svc v).state ≠ .off) (continuous : c.discontinuity = false)
        (lastPs : (brokenSvc c (s.svc v)).lastPs.isNone = false) (judged : switchStep v c (givePs v false p u) = w)
        (other : ¬((w.svc v).state = .network ∨ (w.svc v).state = .cueing))
        (log : w.log = s.log ∨ ∃ x, w.log = s.log ++ [x]) (fetch : w.port.fetch = s.port.fetch) : leaves w := by
      have step := (handled (.inl continuous)).trans
        ((congrArg (fun b => dispose v r c (switchStep v c (givePs v b p u))) lastPs).trans
          ((congrArg (dispose v r c) judged).trans (dispose_discards other)))
      exact cell.followed used step log fetch
    have closes (f : OutFlags) : closeScheduled e .missed f u = missed f u := by
      refine (closeScheduled_eq (s := u) scheduled ofService .missed f).trans ?_
      rw [schedWithout_only (s := u) only]
      rfl
    have given : givePs v false p u = judgeHeads v p [e] u :=
      (givePs_known p).trans (congrArg (judgeHeads v p · u) only)
    have known (continuous : c.discontinuity = false) (hadPs : (s.svc v).lastPs.isSome = true) :
        (brokenSvc c (s.svc v)).lastPs.isNone = false := by
      unfold brokenSvc
      rw [continuous]
      simpa using hadPs
    have due : inDueWindow (u.svc v).cfg splice p = true ↔ inWindow := by
      rw [own]
      simp only [inDueWindow, before, after, atOrAfter, Bool.and_eq_true, decide_eq_true_eq, inWindow]
      exact and_congr_right fun _ => and_congr_right fun _ => ne_comm
    have late : windowOver (u.svc v).cfg splice p = true ↔ (p - close).toNat < 2 ^ 35 := by
      rw [own]
      exact decide_eq_true_iff
    have notDue (ended : (p - close).toNat < 2 ^ 35) : inDueWindow (u.svc v).cfg splice p = false :=
      Bool.eq_false_iff.2 fun h => by
        obtain ⟨-, before, other⟩ := due.1 h
        exact other (not_both_sides ended before)
    refine ⟨fun network continuous hadPs => ⟨?_, ?_, ?_, ?_⟩, ?_, ?_⟩
    · intro outside early
      have waits : judgeHeads v p [e] u = u := judgeHeads_waits (s := u) set (Bool.eq_false_iff.2 fun h => outside (due.1 h))
        (Bool.eq_false_iff.2 fun h => absurd (late.1 h) (Nat.not_lt.2 early))
      exact sends (w := s.arrived lane) (y := tracked) network (known continuous hadPs)
        ((congrArg (switchStep v c) (given.trans waits)).trans (switchStep_network (by rw [own]; exact network)))
        (.inl network) rfl ⟨rfl, rfl, rfl⟩ (.inl rfl) rfl
    · intro inside loaded cueing
      have laneUp : u.laneUp v = true := by
        unfold State.laneUp
        rw [routeOf_eq (s := u) unique active service]
        have still : (u.inLane lane).state = .up :=
          (congrArg InLane.state (Tbl.get_put_self s.inLanes lane { s.inLane lane with lastArrival := _ })).trans up
        refine decide_eq_true ?_
        rw [show (u.route r).inLane = lane from onLane]
        exact still
      have cues := given.trans (judgeHeads_cues (s := u) set (due.2 inside) (clipsGone_of_loaded (s := u) loaded)
        (by rw [own]; exact network) laneUp)
      have inTime : windowOver (s.svc v).cfg splice p = false := decide_eq_false fun ended => by
        obtain ⟨-, before, apart⟩ := inside
        exact apart (not_both_sides ended before)
      have hunts {w : State} (judged : givePs v false p u = { w with services := s.services.put v cueing })
          (at_ : (w.event e).s = some splice) (unfilled : prefilled w e = false) :
          switchStep v c (givePs v false p u) = if spliceFrom c splice = true then
            ({ w with services := s.services.put v cueing } : State).noteFlags e (noSlotIf (w.event e).slot.isNone)
            else { w with services := s.services.put v cueing } := by
        have reads : State.svc { w with services := s.services.put v cueing } v = cueing := Tbl.get_put_self _ _ _
        exact (congrArg (switchStep v c) judged).trans ((switchStep_cueing (by rw [reads])).trans (cueingStep_waits
          (s := { w with services := s.services.put v cueing }) (by rw [reads]) at_ (by rw [reads]) ps unfilled
          (by rw [reads]; exact inTime)))
      have sched : schedWithout u v e = s.sched.put v [] := schedWithout_only (s := u) only
      refine ⟨fun k free lowest => ?_, fun taken noSlot => ?_⟩
      · have judged := cues.trans (cue_granted (s := u) ofService free lowest)
        rw [own, sched] at judged
        dsimp only [u] at judged
        rw [Tbl.put_put] at judged
        let w : State := { s.arrived lane with
          sched := s.sched.put v [], events := s.events.put e { s.event e with state := .cueing, slot := some k }
          slots := s.slots.put k { Slot.reset with
            owner := some (.event e), clips := .list (s.event e).clips, unitInt := (s.svc v).cfg.unitInt
            unitFrac := (s.svc v).cfg.unitFrac } }
        have at_ : w.event e = { s.event e with state := .cueing, slot := some k } := Tbl.get_put_self _ _ _
        have empty : prefilled w e = false := by
          have ring : (w.slot k).ring = [] := congrArg Slot.ring (Tbl.get_put_self s.slots k { Slot.reset with
            owner := some (.event e), clips := .list (s.event e).clips, unitInt := (s.svc v).cfg.unitInt
            unitFrac := (s.svc v).cfg.unitFrac })
          rw [prefilled_iff (k := k) (by rw [at_]), ring]
          rfl
        have hunted := hunts (w := w) judged (by rw [at_]; exact set) empty
        rw [at_] at hunted
        refine sends (w := w) (y := cueing) network (known continuous hadPs) (hunted.trans ?_) (.inr rfl) rfl
          ⟨rfl, rfl, rfl⟩ (.inl rfl) rfl
        exact (congrArg (fun x => if spliceFrom c splice = true then x else _) (noteFlags_none e _)).trans (ite_self _)
      · intro deferred
        have judged := cues.trans (cue_waits (s := u) ofService taken)
        rw [own, sched] at judged
        dsimp only [u] at judged
        rw [Tbl.put_put] at judged
        let w : State := { s.arrived lane with
          sched := s.sched.put v [], events := s.events.put e { s.event e with state := .cueing }
          waitList := s.waitList ++ [.event e] }
        have at_ : w.event e = { s.event e with state := .cueing } := Tbl.get_put_self _ _ _
        have hunted := hunts (w := w) judged (by rw [at_]; exact set) (by simp only [prefilled, at_, noSlot])
        have point : spliceFrom c splice = deferred := by
          simp only [spliceFrom, Cell.isSplice, ps, Option.isSome_some, Bool.and_true, atOrAfter, deferred]
        rw [at_, noSlot, point] at hunted
        have noted : (if deferred = true then
            ({ w with services := s.services.put v cueing } : State).noteFlags e (noSlotIf true)
            else { w with services := s.services.put v cueing }) = { w with
              services := s.services.put v cueing
              events := s.events.put e { s.event e with
                state := .cueing, flags := { (s.event e).flags with noSlot := (s.event e).flags.noSlot || deferred } } } := by
          rcases Bool.eq_false_or_eq_true deferred with yes | no
          · rw [yes]
            simp [State.noteFlags, State.modEvent, State.event, w, OutFlags.union, noSlotIf]
          · rw [no, Bool.or_false]
            rfl
        exact sends (w := { w with events := _ }) (y := cueing) network (known continuous hadPs) (hunted.trans noted)
          (.inr rfl) rfl ⟨rfl, rfl, rfl⟩ (.inl rfl) rfl
    · intro inside gone
      have judged := given.trans ((judgeHeads_gone (s := u) set (due.2 inside) (clipsGone_of_free (s := u) gone)).trans
        (closes fStoreFault))
      exact sends (w := missed fStoreFault (s.arrived lane)) (y := tracked) network (known continuous hadPs)
        ((congrArg (switchStep v c) judged).trans (switchStep_network (by exact (congrArg Service.state own).trans network)))
        (.inl network) rfl ⟨rfl, rfl, rfl⟩ (.inr ⟨_, rfl⟩) rfl
    · intro ended
      have judged := given.trans ((judgeHeads_over (s := u) set (notDue ended) (late.2 ended)).trans (closes _))
      have flags : busyFlags (u.svc v) = {} := by
        rw [own]
        simp only [busyFlags, show tracked.state = .network from network]
      rw [flags] at judged
      exact sends (w := missed {} (s.arrived lane)) (y := tracked) network (known continuous hadPs)
        ((congrArg (switchStep v c) judged).trans (switchStep_network (by exact (congrArg Service.state own).trans network)))
        (.inl network) rfl ⟨rfl, rfl, rfl⟩ (.inr ⟨_, rfl⟩) rfl
    · intro network broken outside
      have fresh : (brokenSvc c (s.svc v)).lastPs.isNone = true := by
        unfold brokenSvc
        rw [broken]
        rfl
      have dropped : keptByCull u p e = false := by
        have far : ¬(1 ≤ (splice - p).toNat ∧ (splice - p).toNat ≤ 2 ^ 34) := by omega
        simp only [keptByCull, show (u.event e).s = some splice from set, decide_eq_false far]
      have judged := (givePs_culls (s := u) only scheduled ofService dropped).trans (closes fTimelineBreak)
      exact sends (w := missed fTimelineBreak (s.arrived lane)) (y := tracked) network fresh
        ((congrArg (switchStep v c) judged).trans (switchStep_network (by exact (congrArg Service.state own).trans network)))
        (.inl network) rfl ⟨rfl, rfl, rfl⟩ (.inr ⟨_, rfl⟩) rfl
    · intro busy continuous hadPs kept
      have used : (s.svc v).state ≠ .off := by
        rcases busy with alert | ⟨inserting, -⟩
        · rw [alert]
          decide
        · rw [inserting]
          decide
      have other : ¬((s.svc v).state = .network ∨ (s.svc v).state = .cueing) := by
        rcases busy with alert | ⟨inserting, -⟩
        · rw [alert]
          decide
        · rw [inserting]
          decide
      have still (w : State) (services : w.svc v = tracked) (tr : ∀ g, (w.event g).tr = (s.event g).tr) :
          switchStep v c w = w := by
        rcases busy with alert | ⟨inserting, early⟩
        · exact switchStep_alert (by rw [services]; exact alert)
        · refine switchStep_inserting (by rw [services]; exact inserting) ps fun g target event at_ => ?_
          rw [services] at event
          exact early g target event ((tr g).symm.trans at_)
      have closedTr (f : OutFlags) (g : EventId) : ((missed f u).event g).tr = (s.event g).tr := by
        by_cases same : g = e
        · rw [same]
          have put : (missed f u).event e = (s.event e).closedAs .missed f := Tbl.get_put_self _ _ _
          rw [put]
          rfl
        · exact congrArg Event.tr (Tbl.get_put_ne _ same _)
      refine ⟨fun inside loaded => ?_, fun inside gone => ?_, fun ended => ?_⟩
      · have waits := given.trans (judgeHeads_busy (s := u) set (due.2 inside) (clipsGone_of_loaded (s := u) loaded)
          (by rw [own]; exact fun h => other (.inl h)))
        exact keeps used continuous (known continuous hadPs)
          ((congrArg (switchStep v c) waits).trans (still u own fun _ => rfl))
          (by rw [show State.svc kept v = tracked from own]; exact other) (.inl rfl) rfl
      · have judged := given.trans ((judgeHeads_gone (s := u) set (due.2 inside) (clipsGone_of_free (s := u) gone)).trans
          (closes fStoreFault))
        exact keeps (w := missed fStoreFault u) used continuous (known continuous hadPs)
          ((congrArg (switchStep v c) judged).trans (still (missed fStoreFault u) own (closedTr _)))
          (by rw [show (missed fStoreFault u).svc v = tracked from own]; exact other) (.inr ⟨_, rfl⟩) rfl
      · have judged := given.trans ((judgeHeads_over (s := u) set (notDue ended) (late.2 ended)).trans (closes _))
        have flags : busyFlags (u.svc v) =
            if (s.svc v).state = .alert then ({ alert := true } : OutFlags) else { busyService := true } := by
          rw [own]
          rcases busy with alert | ⟨inserting, -⟩
          · simp only [busyFlags, show tracked.state = .alert from alert, alert]
            rfl
          · simp only [busyFlags, show tracked.state = .inserting from inserting, inserting]
            rfl
        rw [flags] at judged
        exact keeps (w := missed _ u) used continuous (known continuous hadPs)
          ((congrArg (switchStep v c) judged).trans (still _ own (closedTr _)))
          (by rw [show State.svc (missed _ u) v = tracked from own]; exact other) (.inr ⟨_, rfl⟩) rfl

end Sys2Proof.Machine
end

section
/-!
PROOFS. What a network cell leaves alone (R23): the lanes' states among it.
-/
namespace Sys2Proof.Machine
set_option Elab.async false

section Kept
variable {b : Bool} {s t : State} {v : SvcId}

theorem Kept.modSvc (i : SvcId) (f : Service → Service) (h : Kept b s t) : Kept b s (t.modSvc i f) := h.rest

theorem Kept.modEvent (i : EventId) (f : Event → Event) (h : Kept b s t) : Kept b s (t.modEvent i f) := h.rest

theorem Kept.modSlot (i : SlotId) (f : Slot → Slot) (h : Kept b s t) : Kept b s (t.modSlot i f) := h.rest

theorem Kept.judgeHeads (v : SvcId) (p : Stamp) : ∀ (l : List EventId) {t : State}, Kept b s t →
    Kept b s (judgeHeads v p l t)
  | [], _, h => h
  | e :: l, t, h => by
    unfold Machine.judgeHeads
    split
    · exact h
    · split
      · split
        · exact Kept.judgeHeads v p l (h.closeScheduled e _ _)
        · split
          · split
            · exact Kept.judgeHeads v p l (h.cue v e)
            · exact Kept.judgeHeads v p l (h.closeScheduled e _ _)
          · exact h
      · split
        · exact Kept.judgeHeads v p l (h.closeScheduled e _ _)
        · exact h

theorem Kept.cull (v : SvcId) (p : Stamp) (h : Kept b s t) : Kept b s (cull v p t) :=
  Kept.foldl (fun _ e k => k.closeScheduled e _ _) _ h

theorem Kept.givePs (v : SvcId) (fresh : Bool) (p : Stamp) (h : Kept b s t) : Kept b s (givePs v fresh p t) := by
  have culled : Kept b s (if fresh then Machine.cull v p t else t) := by
    split
    · exact h.cull v p
    · exact h
  exact Kept.judgeHeads v p _ culled

theorem Kept.noteFlags (e : EventId) (f : OutFlags) (h : Kept b s t) : Kept b s (t.noteFlags e f) := h.rest

theorem Kept.noteCurrent (v : SvcId) (f : OutFlags) (h : Kept b s t) : Kept b s (noteCurrent v f t) := by
  unfold Machine.noteCurrent
  split
  · exact h.noteFlags _ f
  · exact h

theorem Kept.breakStep (v : SvcId) (h : Kept b s t) : Kept b s (breakStep v t) := by
  have dropped : Kept b s (t.modSvc v fun x => { x.dropClock with lastPs := none }) := h.rest
  unfold Machine.breakStep
  dsimp only
  split
  · exact dropped.leaveCueing v _ _
  · split
    · exact dropped.earlyEnd _ _ _
    · exact dropped
  · exact Kept.rest (t := Machine.noteCurrent v _ _) (dropped.noteCurrent v _)
  · exact dropped

/-! ### The switching decisions (R25 to R35) -/

theorem Kept.breakExit (v : SvcId) (e : EventId) (px : Stamp) (d : Nat) (forced : Bool) (h : Kept b s t) :
    Kept b s (breakExit v e px d forced t) := by
  unfold Machine.breakExit
  refine Kept.onSlot (fun k u hu => ?_) ((h.modSvc v _).modEvent e _)
  exact ((hu.modSlot k _).modSvc v _).modSlot k _

theorem Kept.takeExit (v : SvcId) (e : EventId) (px : Stamp) (forced : Bool) (h : Kept b s t) :
    Kept b s (takeExit v e px forced t) := by
  have recorded (d : Nat) : Kept b s (recordExit e px d forced t) := h.rest
  unfold Machine.takeExit
  dsimp only
  split
  · exact Kept.onSlot (fun k u hu => hu.releaseSlot k) (((recorded _).closeEvent e _ _).modSvc v _)
  · exact (recorded _).breakExit v e px _ forced

theorem Kept.cueingStep (v : SvcId) (c : Cell) (h : Kept b s t) : Kept b s (cueingStep v c t) := by
  unfold Machine.cueingStep
  split
  · exact h
  · next e _ =>
    have set : Kept b s (setSplice e c.ps t) := h.rest
    dsimp only
    split
    · exact set
    · next splice _ =>
      have noted : Kept b s (if spliceFrom c splice = true then
          (setSplice e c.ps t).noteFlags e (noSlotIf ((setSplice e c.ps t).event e).slot.isNone)
          else setSplice e c.ps t) := by
        split
        · exact set.noteFlags e _
        · exact set
      split
      · exact set.takeExit v e _ _
      · split
        · exact set.takeExit v e _ _
        · generalize (if spliceFrom c splice = true then
            (setSplice e c.ps t).noteFlags e (noSlotIf ((setSplice e c.ps t).event e).slot.isNone)
            else setSplice e c.ps t) = w at noted
          split
          · exact noted
          · split
            · split
              · exact noted.modSvc v _
              · exact noted.leaveCueing v _ _
            · exact noted

theorem Kept.adSwitchBack (v : SvcId) (e : EventId) (h : Kept b s t) : Kept b s (adSwitchBack v e t) := by
  have released := Kept.onSlot (k := (t.event e).slot) (fun k u hu => hu.releaseSlot k)
    (h.modEvent e fun y => { y with retPs := (t.svc v).lastPs, seam := seamOf (t.svc v).lastPs (t.event e).tr })
  unfold Machine.adSwitchBack
  exact (released.closeEvent e _ _).modSvc v _

theorem Kept.switchBack (v : SvcId) (h : Kept b s t) : Kept b s (switchBack v t) := by
  unfold Machine.switchBack
  split
  · exact h.adSwitchBack v _
  · exact Kept.rest (t := Machine.dropLossSlot v t) (h.dropLossSlot v)
  · exact h.rest

theorem Kept.forceReturn (v : SvcId) (h : Kept b s t) : Kept b s (forceReturn v t) :=
  Kept.rest (t := Machine.noteCurrent v fForcedReturn t) (h.noteCurrent v _)

theorem Kept.returningStep (v : SvcId) (c : Cell) (h : Kept b s t) : Kept b s (returningStep v c t) := by
  have referred : Kept b s (t.modSvc v fun x => { x with returnRef := x.returnRef.or c.ps }) := h.rest
  unfold Machine.returningStep
  dsimp only
  split
  · exact referred.switchBack v
  · split
    · split
      · exact referred.switchBack v
      · split
        · exact referred.forceReturn v
        · exact referred
    · exact referred

theorem Kept.insertingStep (v : SvcId) (c : Cell) (h : Kept b s t) : Kept b s (insertingStep v c t) := by
  unfold Machine.insertingStep
  split
  · split
    · split
      · exact Kept.returningStep v c (Kept.onSlot (fun k u hu => hu.stopFetch k) (h.modSvc v _))
      · exact h
    · exact h
  · exact h

theorem Kept.switchStep (v : SvcId) (c : Cell) (h : Kept b s t) : Kept b s (switchStep v c t) := by
  unfold Machine.switchStep
  split
  · exact h.cueingStep v c
  · exact h.insertingStep v c
  · exact h.returningStep v c
  · exact h

/-! ### The lane's return (R39) -/

theorem Kept.sourceBack (v : SvcId) (h : Kept b s t) : Kept b s (sourceBack v t) := by
  unfold Machine.sourceBack
  dsimp only
  split
  · exact h.rest
  · split
    · exact h.rest
    · exact h
  · exact h

end Kept

/-! ### The input lanes under a cell (R4, R8) -/

theorem offer_inLanes (r : RouteId) (c : Cell) (s : State) : (offer r c s).inLanes = s.inLanes := by
  rcases offer_cases r c s with ⟨_, e⟩ | ⟨_, e⟩ <;> rw [e] <;> rfl

theorem dispose_inLanes (v : SvcId) (r : RouteId) (c : Cell) (s : State) : (dispose v r c s).inLanes = s.inLanes := by
  have offered := offer_inLanes r { c with discontinuity := c.discontinuity || (s.svc v).networkMark } s
  unfold dispose
  dsimp only
  split
  · split
    · exact offered
    · exact offered
  · rfl

theorem networkCell_inLanes (v : SvcId) (r : RouteId) (c : Cell) (s : State) :
    (networkCell v r c s).inLanes = s.inLanes := by
  have broken : Kept false s (if c.discontinuity then breakStep v s else s) := by
    split
    · exact (Kept.refl s).breakStep v
    · exact Kept.refl s
  unfold networkCell
  dsimp only
  rw [dispose_inLanes]
  generalize (if c.discontinuity = true then breakStep v s else s) = u at broken
  have tracked : Kept false s (u.modSvc v fun x => x.track c u.now) := broken.rest
  split
  · exact ((tracked.givePs v _ _).switchStep v c).inLanes
  · exact (tracked.switchStep v c).inLanes

theorem mediaCell_inLanes (r : RouteId) (c : Cell) (s : State) : (mediaCell r c s).inLanes = s.inLanes := by
  unfold mediaCell
  split
  · exact offer_inLanes r c s
  · next v _ =>
    split
    · exact offer_inLanes r c s
    · obtain ⟨_, _, _, followed⟩ := (settleTallies_cueOnly (oneEvent (networkCell v r c) s)).trans
        (clockCell_cueOnly v c _)
      rw [followed]
      exact networkCell_inLanes v r c s

/-- A cell counts, at most, on its lane: the lane's state and its last arrival stay (R8, R9). -/
theorem routeCell_lane (lane : InLaneId) (c : Cell) (s : State) :
    ((routeCell lane c s).inLane lane).state = (s.inLane lane).state ∧
      ((routeCell lane c s).inLane lane).lastArrival = (s.inLane lane).lastArrival := by
  have counted : ((countUnrouted lane s).inLane lane).state = (s.inLane lane).state ∧
      ((countUnrouted lane s).inLane lane).lastArrival = (s.inLane lane).lastArrival := by
    rw [countUnrouted, State.modInLane_self]
    exact ⟨rfl, rfl⟩
  have same {t : State} (lanes : t.inLanes = s.inLanes) : (t.inLane lane).state = (s.inLane lane).state ∧
      (t.inLane lane).lastArrival = (s.inLane lane).lastArrival := by
    unfold State.inLane
    rw [lanes]
    exact ⟨rfl, rfl⟩
  unfold routeCell
  split
  · exact ⟨rfl, rfl⟩
  · exact counted
  · split
    · next g _ =>
      unfold intakeCell
      split
      · exact ⟨rfl, rfl⟩
      · exact ⟨rfl, rfl⟩
    · exact counted
  · split
    · exact same (mediaCell_inLanes _ c s)
    · exact counted

end Sys2Proof.Machine
end

section
/-!
PROOFS. The loss of an input lane, and its return (R4, R5, R37 to R39).
-/
namespace Sys2Proof.Machine
set_option Elab.async false

/-- A loss fill joins behind the loss fills that wait (R93). -/
theorem joinLoss_behind (v : SvcId) {fills rest : List Claimant} (losses : ∀ x ∈ fills, ∃ w, x = .loss w)
    (others : ∀ w, rest.head? ≠ some (.loss w)) : joinLoss v (fills ++ rest) = fills ++ .loss v :: rest := by
  induction fills with
  | nil =>
    cases rest with
    | nil => rfl
    | cons x l =>
      cases x with
      | loss w => exact absurd rfl (others w)
      | event e => rfl
  | cons x l ih =>
    obtain ⟨w, rfl⟩ := losses x List.mem_cons_self
    exact congrArg (Claimant.loss w :: ·) (ih fun y hy => losses y (List.mem_cons_of_mem _ hy))

section
variable {v : SvcId} {lane : InLaneId} {s : State}

/-! ### A lane goes DOWN (R5, R37) -/

/-- The input lanes with one DOWN. -/
def State.lanesDown (s : State) (lane : InLaneId) : Tbl InLane 4 :=
  s.inLanes.put lane { s.inLane lane with state := .down }

/-- A lane's loss that is due and has passed is an event of the part (R5, R37). -/
theorem exec_laneLoss {m : Ms} (due : Due.laneLoss lane ∈ s.due) (up : (s.inLane lane).state = .up)
    (last : (s.inLane lane).lastArrival = some m)
    (passes : (s.now - (m + BitVec.ofNat 32 (s.inLane lane).timeout)).toNat < 2 ^ 31) :
    exec (.laneLoss lane) s = .next (event (fun u => (u.servicesOn lane).foldl (fun t v => sourceLost v t) u)
      { s.taking (.laneLoss lane) with inLanes := s.lanesDown lane }) := by
  have checked : lossPassed (s.taking (.laneLoss lane)) lane = true := lossPassed_iff.2 ⟨up, m, last, passes⟩
  exact congrArg Host.Outcome.next ((takeDue_of_mem due).trans (if_pos checked))

theorem sourceLost_network (network : (s.svc v).state = .network) (idle : (s.svc v).lossWaiting = false) :
    sourceLost v s = lossFill v s := by
  simp only [sourceLost, network]
  exact if_neg (ne_true_of_eq_false idle)

theorem sourceLost_cueing {e : EventId} {k : SlotId} (cueing : (s.svc v).state = .cueing)
    (event : (s.svc v).event = some e) (eventCueing : (s.event e).state = .cueing)
    (service : (s.event e).service = v) (slot : (s.event e).slot = some k) (alone : ReleasedAlone s k)
    (noClip : (s.svc v).cfg.lossClip = none) : sourceLost v s = { s with
      events := s.events.put e ((s.event e).closedAs .missed fSourceLost)
      log := s.log ++ [entryOf e ((s.event e).closedAs .missed fSourceLost) .missed s.now]
      slots := s.slots.put k Slot.reset
      services := s.services.put v { backInNetwork (s.svc v) with dark := true } } := by
  have left : sourceLost v s = lossFill v (endCueing e .missed fSourceLost s) := by
    simp only [sourceLost, cueing, leaveCueing, event]
  rw [left, endCueing_alone .missed fSourceLost eventCueing slot service alone]
  exact lossFill_put (s := { s with
    events := s.events.put e ((s.event e).closedAs .missed fSourceLost)
    log := s.log ++ [entryOf e ((s.event e).closedAs .missed fSourceLost) .missed s.now]
    slots := s.slots.put k Slot.reset }) (x := backInNetwork (s.svc v)) noClip

/-! ### A lane comes back (R4, R39) -/

theorem sourceBack_filling (inserting : (s.svc v).state = .inserting) (kind : (s.svc v).kind = some .loss) :
    sourceBack v s = { s with services := s.services.put v { s.svc v with
      state := .returning, returnRef := none, backstop := some (returnBackstop s v) } } := by
  have step : sourceBack v s = s.modSvc v fun y => { y with
      state := .returning, backstop := some (returnBackstop s v), returnRef := none } := by
    simp only [sourceBack, inserting, kind]
  exact step

theorem sourceBack_waiting (network : (s.svc v).state = .network) (waiting : (s.svc v).lossWaiting = true) :
    sourceBack v s = { s with
      waitList := s.waitList.filter fun x => decide (x ≠ .loss v)
      services := s.services.put v { s.svc v with lossWaiting := false } } := by
  have step : sourceBack v s = if (s.svc v).lossWaiting then
      (s.leaveWait (.loss v)).modSvc v fun y => { y with lossWaiting := false } else s := by
    simp only [sourceBack, network]
  exact step.trans (if_pos waiting)

end

/-- Settles O16: the frames of a lane's loss, the loss applied to one service, and the lane's return. -/
theorem laneLossTakesTheLaneDown : Obligations.LaneLossTakesTheLaneDown := by
  intro lane s
  refine ⟨?_, fun bs c size judged laneDown => ?_⟩
  · intro m due up last passes down
    let u : State := { s.taking (.laneLoss lane) with inLanes := down }
    let lose : State → State := fun u => (u.servicesOn lane).foldl (fun t v => sourceLost v t) u
    have kept : Kept true u (event lose u) :=
      Kept.event (Kept.foldl (fun _ v h => h.sourceLost v) (u.servicesOn lane) (Kept.refl u))
    refine ⟨event lose u, exec_laneLoss due up last passes, kept.inLanes, kept.routes, kept.clips, kept.windows,
      kept.channels, fun v only => ?_⟩
    have one {t : State} (step : sourceLost v u = t) (log : t.log = s.log ∨ ∃ x, t.log = s.log ++ [x])
        (fetch : t.port.fetch = s.port.fetch) : Followed { t with due := s.due } (event lose u) := by
      have lost : lose u = t :=
        (congrArg (fun l => l.foldl (fun t v => sourceLost v t) u) (show u.servicesOn lane = [v] from only)).trans step
      obtain ⟨l, cs, ds, ph, shape⟩ := event_followed lost log fetch
      exact ⟨l, cs, ds, ph, shape⟩
    refine ⟨fun network idle => ?_, ?_⟩
    · have filled : sourceLost v u = lossFill v u := sourceLost_network (s := u) network idle
      refine ⟨fun noClip => ?_, fun c clip loaded => ⟨fun k free lowest => ?_, fun fills rest taken waits losses others => ?_⟩⟩
      · obtain ⟨l, cs, ds, ph, shape⟩ := one (filled.trans (lossFill_none (s := u) noClip)) (.inl rfl) rfl
        rw [shape]
        exact ⟨rfl, rfl, rfl⟩
      · exact one (filled.trans (lossFill_granted (s := u) clip loaded free lowest)) (.inl rfl) rfl
      · have joined : joinLoss v u.waitList = fills ++ .loss v :: rest :=
          (congrArg (joinLoss v) waits).trans (joinLoss_behind v losses others)
        have step := filled.trans (lossFill_waits (s := u) clip loaded taken)
        rw [joined] at step
        exact one step (.inl rfl) rfl
    · intro e k cueing event eventCueing service slot alone noClip closed
      have step := sourceLost_cueing (s := u) cueing event eventCueing service slot alone noClip
      have closedEq : (s.event e).closedAs .missed fSourceLost = closed := by
        simp [Event.closedAs, OutFlags.union, fSourceLost, closed]
        rfl
      rw [show (u.event e).closedAs .missed fSourceLost = closed from closedEq] at step
      exact one step (.inr ⟨_, rfl⟩) rfl
  · have back : exec (.cellArrival lane bs) s =
        .next (finishFrom (s.arrived lane) (routeCell lane c (laneBack lane (s.arrived lane)))) :=
      congrArg Host.Outcome.next (arrival_valid size judged lane s)
    have stillDown : ((s.arrived lane).inLane lane).state = .down := by
      rw [State.arrived, State.modInLane_self]
      exact laneDown
    let u : State := (s.arrived lane).modInLane lane fun x => { x with state := .up }
    have returned : laneBack lane (s.arrived lane) = (u.servicesOn lane).foldl (fun t v => sourceBack v t) u :=
      if_pos stillDown
    let w : State := (u.servicesOn lane).foldl (fun t v => sourceBack v t) u
    have kept : w.inLanes = u.inLanes :=
      (Kept.foldl (b := true) (fun _ v h => h.sourceBack v) (u.servicesOn lane) (Kept.refl u)).inLanes
    let t : State := finishFrom (s.arrived lane) (routeCell lane c w)
    have finished : t.inLanes = (routeCell lane c w).inLanes :=
      (Kept.finishFrom (Kept.refl (routeCell lane c w))).inLanes
    have lane_ : w.inLane lane = { s.inLane lane with state := .up, lastArrival := some s.now } := by
      unfold State.inLane
      rw [kept]
      unfold u
      rw [State.arrived, modInLane_modInLane]
      exact Tbl.get_put_self _ _ _
    obtain ⟨state, last⟩ := routeCell_lane lane c w
    rw [lane_] at state last
    refine ⟨t, by rw [back, returned], ?_, ?_, ?_⟩
    · unfold State.inLane
      rw [finished]
      exact state
    · unfold State.inLane
      rw [finished]
      exact last
    · intro v filler only lanesUp
      have one {x : State} (step : sourceBack v u = x) (fetch : x.port.fetch = s.port.fetch) : Followed x t := by
        have routed : routeCell lane c w = x := by
          simp only [routeCell, filler]
          exact (congrArg (fun l => l.foldl (fun t v => sourceBack v t) u)
            (show u.servicesOn lane = [v] from only)).trans step
        unfold t
        rw [routed]
        exact finishFrom_followed fetch
      have lanes : u.inLanes = lanesUp := by
        unfold u
        rw [State.arrived, modInLane_modInLane]
        rfl
      refine ⟨fun inserting kind => ?_, fun network waiting => ?_⟩
      · have followed := one (sourceBack_filling (s := u) inserting kind) rfl
        rw [lanes] at followed
        exact followed
      · have followed := one (sourceBack_waiting (s := u) network waiting) rfl
        rw [lanes] at followed
        exact followed

end Sys2Proof.Machine
end

section
/-!
PROOFS. SPLICE_NOW and CANCEL (R53, R55).
-/
namespace Sys2Proof.Machine
set_option Elab.async false

section
variable {v : SvcId} {e : EventId} {k : SlotId} {s : State}

/-! ### SPLICE_NOW (R53) -/

theorem spliceEvent_cues (service : (s.event e).service = v)
    (loaded : ∀ c ∈ (s.event e).clips, (s.clip c).state = .loaded) (network : (s.svc v).state = .network)
    (up : s.laneUp v = true) : spliceEvent e s = cue v e (s.modEvent e fun y => { y with s := none }) := by
  unfold spliceEvent
  dsimp only
  rw [clipsGone_of_loaded loaded, service, up]
  exact (if_neg Bool.false_ne_true).trans ((if_pos network).trans (if_pos rfl))

/-- SPLICE_NOW with a slot FREE (R53, R92). -/
theorem spliceEvent_granted (service : (s.event e).service = v)
    (loaded : ∀ c ∈ (s.event e).clips, (s.clip c).state = .loaded) (network : (s.svc v).state = .network)
    (up : s.laneUp v = true) (free : (s.slot k).owner = none) (lowest : ∀ j, j < k → (s.slot j).owner.isSome = true) :
    spliceEvent e s = { s with
      sched := schedWithout s v e
      services := s.services.put v { s.svc v with state := .cueing, event := some e, exitPending := false }
      events := s.events.put e { s.event e with state := .cueing, s := none, slot := some k }
      slots := s.slots.put k { Slot.reset with
        owner := some (.event e), clips := .list (s.event e).clips, unitInt := (s.svc v).cfg.unitInt
        unitFrac := (s.svc v).cfg.unitFrac } } := by
  generalize unset : s.modEvent e (fun y => { y with s := none }) = z
  have own : z.event e = { s.event e with s := none } := by
    rw [← unset]
    exact State.modEvent_self _ _ _
  have cued := cue_granted (v := v) (e := e) (k := k) (s := z) (by rw [own]; exact service)
    (by rw [← unset]; exact free) (by rw [← unset]; exact lowest)
  rw [own, ← unset] at cued
  rw [spliceEvent_cues service loaded network up, cued]
  simp only [State.modEvent, Tbl.put_put]
  rfl

/-- SPLICE_NOW with no slot FREE (R53, R93). -/
theorem spliceEvent_waits (service : (s.event e).service = v)
    (loaded : ∀ c ∈ (s.event e).clips, (s.clip c).state = .loaded) (network : (s.svc v).state = .network)
    (up : s.laneUp v = true) (taken : ∀ k, (s.slot k).owner.isSome = true) : spliceEvent e s = { s with
      sched := schedWithout s v e
      services := s.services.put v { s.svc v with state := .cueing, event := some e, exitPending := false }
      events := s.events.put e { s.event e with state := .cueing, s := none }
      waitList := s.waitList ++ [.event e] } := by
  generalize unset : s.modEvent e (fun y => { y with s := none }) = z
  have own : z.event e = { s.event e with s := none } := by
    rw [← unset]
    exact State.modEvent_self _ _ _
  have cued := cue_waits (v := v) (e := e) (s := z) (by rw [own]; exact service) (by rw [← unset]; exact taken)
  rw [own, ← unset] at cued
  rw [spliceEvent_cues service loaded network up, cued]
  simp only [State.modEvent, Tbl.put_put]
  rfl

theorem spliceEvent_busy (service : (s.event e).service = v) (scheduled : (s.event e).state = .scheduled)
    (loaded : ∀ c ∈ (s.event e).clips, (s.clip c).state = .loaded) (busy : (s.svc v).state ≠ .network) :
    let missed := (s.event e).closedAs .missed (busyFlags (s.svc v))
    spliceEvent e s = { s with
      sched := schedWithout s v e, events := s.events.put e missed
      log := s.log ++ [entryOf e missed .missed s.now] } := by
  intro missed
  have closed : spliceEvent e s = closeScheduled e .missed (busyFlags (s.svc v)) s := by
    unfold spliceEvent
    dsimp only
    rw [clipsGone_of_loaded loaded, service]
    exact (if_neg Bool.false_ne_true).trans (if_neg busy)
  exact closed.trans (closeScheduled_eq scheduled service .missed _)

/-- The flag of an event missed on a busy service (R50, R53). -/
theorem busyFlags_eq (x : Service) (busy : x.state ≠ .network) (used : x.state ≠ .off) :
    busyFlags x = if x.state = .alert ∨ (x.state = .returning ∧ x.kind = some .alert) then fAlert else fBusy := by
  unfold busyFlags
  cases state : x.state with
  | off => exact absurd state used
  | network => exact absurd state busy
  | cueing => simp
  | inserting => simp
  | returning => simp
  | alert => simp

end

/-- Settles O55. -/
theorem spliceNowCues : Obligations.SpliceNowCues := by
  intro x e v s service
  have step : exec (.spliceNow x e.val) s = .next (record (doSpliceNow x e.val s)) := rfl
  refine ⟨?_, fun admitted other => ?_, fun guarded => ?_⟩
  · intro admitted scheduled loaded sched cueing
    have done {t : State} (spliced : spliceEvent e s = t) (log : t.log = s.log ∨ ∃ x, t.log = s.log ++ [x]) :
        ∃ u, exec (.spliceNow x e.val) s = .next (u.codeAnswered .ok) ∧ Followed t u := by
      refine ⟨finish t, step.trans (congrArg Host.Outcome.next ?_), finish_followed t⟩
      rw [doSpliceNow, entryAt_val, allowed_eq_true admitted, Bool.not_true, refuseIf_false,
        decide_eq_false (not_not.2 scheduled), refuseIf_false, record_mk, oneEvent_eq spliced log]
      rfl
    refine ⟨fun network up => ⟨fun k free lowest => ?_, fun taken => ?_⟩, ?_⟩
    · exact done (spliceEvent_granted service loaded network up free lowest) (.inl rfl)
    · exact done (spliceEvent_waits service loaded network up taken) (.inl rfl)
    · intro busy used underAlert missed
      have flags : (s.event e).flags.union (busyFlags (s.svc v)) =
          if underAlert then { (s.event e).flags with alert := true }
          else { (s.event e).flags with busyService := true } := by
        rw [busyFlags_eq _ busy used]
        by_cases alert : underAlert
        · rw [if_pos alert, if_pos alert]
          simp [OutFlags.union, fAlert]
        · rw [if_neg alert, if_neg alert]
          simp [OutFlags.union, fBusy]
      have closed : (s.event e).closedAs .missed (busyFlags (s.svc v)) = missed :=
        congrArg (fun f => ({ s.event e with
          state := .missed, outcome := some .missed, flags := f, slot := none } : Event)) flags
      have spliced := spliceEvent_busy service scheduled loaded busy
      rw [closed] at spliced
      exact done spliced (.inr ⟨_, rfl⟩)
  · rw [step, doSpliceNow, entryAt_val, allowed_eq_true admitted, Bool.not_true, refuseIf_false, decide_eq_true other]
    rfl
  · rw [step, doSpliceNow, entryAt_val, allowed_eq_false guarded]
    rfl

end Sys2Proof.Machine
end

section
/-!
PROOFS. CANCEL (R30, R32, R55, R120).
-/
namespace Sys2Proof.Machine
set_option Elab.async false

section
variable {v : SvcId} {e : EventId} {k : SlotId} {f : Fetch} {s : State}

/-! ### The port's side of a slot that is given up (R120) -/

theorem slotGone_resumed (fetch : s.port.fetch = some f) (own : f.slot = k) (abandon : s.port.abandon = false)
    (resume : s.port.resume = true) : slotGone k s = s.modPort Port.dropped := by
  unfold slotGone
  rw [fetch]
  dsimp only
  rw [if_neg (by rw [own, abandon]; simp), if_pos resume]

theorem slotGone_underWay (fetch : s.port.fetch = some f) (own : f.slot = k) (abandon : s.port.abandon = false)
    (resume : s.port.resume = false) (first : f.answered = false) :
    slotGone k s = s.modPort fun p => { p with abandon := true } := by
  unfold slotGone
  rw [fetch]
  dsimp only
  rw [if_neg (by rw [own, abandon]; simp), resume, first]
  rfl

/-- A fetch between two transfers is abandoned, or dropped at once (R120, log entry 42). -/
theorem slotGone_between (fetch : s.port.fetch = some f) (own : f.slot = k) (abandon : s.port.abandon = false)
    (resume : s.port.resume = false) (answered : f.answered = true) :
    slotGone k s = { s with draws := s.draws + 1, port := { s.port with abandon := true } } ∨
      slotGone k s = { s with draws := s.draws + 1, port := s.port.dropped } := by
  have drawn : slotGone k s = { s with
      draws := s.draws + 1
      port := if Config.burstIssued s.draws then { s.port with abandon := true } else s.port.dropped } := by
    unfold slotGone
    rw [fetch]
    dsimp only
    rw [if_neg (by rw [own, abandon]; simp), if_neg (ne_true_of_eq_false resume), if_pos answered]
    rfl
  rw [drawn]
  cases Config.burstIssued s.draws with
  | true => exact .inl rfl
  | false => exact .inr rfl

theorem slotGone_waitList (k : SlotId) (s : State) : (slotGone k s).waitList = s.waitList := by
  unfold slotGone
  split
  · rfl
  · split
    · rfl
    · split
      · rfl
      · split
        · rfl
        · rfl

/-- The release of a slot that no service reads and nobody waits for (R94). -/
theorem releaseSlot_unread (readers : (s.slot k).readers = []) (nobody : s.waitList = []) :
    releaseSlot k s = slotGone k { s with slots := s.slots.put k Slot.reset } := by
  have emptied : emptySlot k s = slotGone k { s with slots := s.slots.put k Slot.reset } := by
    unfold emptySlot detachAll
    rw [readers]
    rfl
  unfold releaseSlot
  rw [emptied]
  exact handOver_nobody ((slotGone_waitList k _).trans nobody)

/-! ### A CUEING event closed (R30) -/

/-- The state in which a CUEING event has been closed, its claim still to be given up (R30). -/
def cueingClosed (s : State) (e : EventId) (o : Outcome) : State := { s with
  events := s.events.put e ((s.event e).closedAs o {})
  log := s.log ++ [entryOf e ((s.event e).closedAs o {}) o s.now]
  services := s.services.put (s.event e).service (backInNetwork (s.svc (s.event e).service)) }

theorem endCueing_eq (cueing : (s.event e).state = .cueing) (o : Outcome) :
    endCueing e o {} s = dropClaim e (s.event e).slot (cueingClosed s e o) := by
  unfold endCueing
  rw [closeEvent_live (live_cueing cueing)]
  rfl

end

/-- Settles O56: CANCEL by the event's state, and by what the port does with the slot of a CUEING event. -/
theorem cancelCloses : Obligations.CancelCloses := by
  intro x e v s service
  have step : exec (.cancel x e.val) s = .next (record (doCancel x e.val s)) := rfl
  refine ⟨fun admitted => ?_, fun guarded => ?_⟩
  · have carried (live : (s.event e).live = true) :
        exec (.cancel x e.val) s = .next ((event (cancelEvent e) s).codeAnswered .ok) := by
      rw [step, doCancel, entryAt_val, allowed_eq_true admitted, Bool.not_true, refuseIf_false, live, Bool.not_true,
        refuseIf_false]
      rfl
    have done {t : State} (live : (s.event e).live = true) (cancelled : cancelEvent e s = t)
        (log : t.log = s.log ∨ ∃ x, t.log = s.log ++ [x]) (fetch : t.port.fetch = s.port.fetch) :
        ∃ u, exec (.cancel x e.val) s = .next (u.codeAnswered .ok) ∧ Followed t u :=
      ⟨_, carried live, event_followed cancelled log fetch⟩
    have bare (o : Outcome) : (s.event e).closedAs o {} = { s.event e with
        state := o.state, outcome := some o, slot := none } := by
      unfold Event.closedAs
      rw [OutFlags.union_none]
    refine ⟨?_, ?_, ?_, ?_, ?_⟩
    · intro scheduled closed
      have cancelled : cancelEvent e s = closeScheduled e .cancelled {} s := by
        simp only [cancelEvent, scheduled]
      have taken := cancelled.trans (closeScheduled_eq scheduled service .cancelled {})
      rw [bare] at taken
      exact done (live_scheduled scheduled) taken (.inr ⟨_, rfl⟩) rfl
    · intro k active other slot inserting fetching
      have cancelled : cancelEvent e s = earlyEnd e (some .cancelled) fTruncated s := by
        simp only [cancelEvent, active]
        exact if_neg other
      have taken := cancelled.trans (earlyEnd_inserting _ _ slot service inserting fetching)
      rw [show (s.event e).flags.union fTruncated = { (s.event e).flags with truncated := true } by
        simp [OutFlags.union, fTruncated]] at taken
      exact done (live_active active) taken (.inl rfl) rfl
    · intro active already settled
      have cancelled : cancelEvent e s = s := by
        simp only [cancelEvent, active]
        exact if_pos already
      have left : event (cancelEvent e) s = s := by
        unfold event
        rw [oneEvent_eq cancelled (.inl rfl), finishFrom_eq (cellDropped_of_fetch_eq rfl), finish_eq settled]
      rw [carried (live_active active), left]
    · intro cueing closed left leaves
      have gone : cueingClosed s e .cancelled = left := by
        unfold cueingClosed
        rw [bare, service]
        rfl
      have cancelled : cancelEvent e s = dropClaim e (s.event e).slot left := by
        rw [← gone, ← endCueing_eq cueing]
        simp only [cancelEvent, cueing]
      refine ⟨fun noSlot => ?_, ?_⟩
      · rw [noSlot] at cancelled
        exact done (live_cueing cueing) cancelled (.inr ⟨_, rfl⟩) rfl
      · intro k slot readers nobody freed
        rw [slot] at cancelled
        have released : cancelEvent e s = slotGone k freed :=
          cancelled.trans (releaseSlot_unread (s := left) readers nobody)
        refine ⟨fun other => ?_, fun f fetch own abandon => ⟨fun resume notOwner => ?_, fun resume burst beat retry => ?_, ?_⟩⟩
        · exact done (live_cueing cueing) (released.trans (slotGone_other (s := freed) other)) (.inr ⟨_, rfl⟩) rfl
        · have dropped : cancelEvent e s = { freed with
              port := { s.port with fetch := none, buffer := [], resume := false } } := by
            have bits : s.port.dropped = { s.port with fetch := none, buffer := [], resume := false } := by
              simp only [Port.dropped, abandon]
            rw [released, slotGone_resumed (s := freed) fetch own abandon resume, ← bits]
            rfl
          have kept : cellDropped s { freed with
              port := { s.port with fetch := none, buffer := [], resume := false } } = false := by
            simp only [cellDropped, decide_eq_false notOwner, Bool.false_and]
          refine ⟨_, carried (live_cueing cueing), ?_⟩
          unfold event
          rw [oneEvent_eq dropped (.inr ⟨_, rfl⟩), finishFrom_eq kept]
          exact finish_followed _
        · have first : f.answered = false := by simp [Fetch.answered, burst, beat, retry]
          exact done (live_cueing cueing) (released.trans (slotGone_underWay (s := freed) fetch own abandon resume first))
            (.inr ⟨_, rfl⟩) rfl
        · intro resume burst owner limit gap
          have answered : f.answered = true := by simp [Fetch.answered, burst]
          rcases slotGone_between (s := freed) fetch own abandon resume answered with kept | dropped
          · exact .inl (done (live_cueing cueing) (released.trans kept) (.inr ⟨_, rfl⟩) rfl)
          · have ends : cellDropped s { freed with draws := s.draws + 1, port := s.port.dropped } = true := by
              simp [cellDropped, Port.dropped, owner, fetch]
            have tenure : oneEvent nextStep { freed with draws := s.draws + 1, port := s.port.dropped } =
                { freed with draws := s.draws + 1, port := releasingPort s.port } := by
              refine oneEvent_eq ((nextStep_last (s := { freed with draws := s.draws + 1, port := s.port.dropped })
                limit gap).trans ?_) (.inl rfl)
              simp only [releasingPort, Port.dropped, resume]
            refine .inr ⟨_, carried (live_cueing cueing), ?_⟩
            unfold event finishFrom
            rw [oneEvent_eq (released.trans dropped) (.inr ⟨_, rfl⟩), ends, if_pos rfl, tenure]
            exact finish_followed _
    · intro notScheduled notCueing notActive
      have dead : (s.event e).live = false := by
        unfold Event.live
        split
        · next h => exact absurd h notScheduled
        · next h => exact absurd h notCueing
        · next h => exact absurd h notActive
        · rfl
      rw [step, doCancel, entryAt_val, allowed_eq_true admitted, Bool.not_true, refuseIf_false, dead]
      rfl
  · rw [step, doCancel, entryAt_val, allowed_eq_false guarded]
    rfl

end Sys2Proof.Machine
end

section
/-!
PROOFS. RESTART: the cue unit, the events and the service contexts (R43, R61, R161, R170).
-/
namespace Sys2Proof.Machine
set_option Elab.async false

/-! ### The tallies with every counter STOPPED (R161, R170) -/

section
variable {s : State}

theorem clockSource_stopped (stopped : ∀ c, (s.counter c).running = false) (src : ClockSource) :
    clockSource src s = s := by
  have ignored (c : CounterId) : clockCounter c s = s := if_pos (by rw [stopped c]; rfl)
  unfold clockSource
  generalize countersOf s src = l
  induction l with
  | nil => rfl
  | cons c l ih => exact (congrArg (fun u => l.foldl (fun t c => clockCounter c t) u) (ignored c)).trans ih

/-- A line that follows its tally source (R161). -/
def CueLine.following (s : State) (x : CueLine) : CueLine :=
  if x.direction = .output then { x with sampled := tallyLevel s x.tally, debounced := tallyLevel s x.tally } else x

theorem drive_stopped (stopped : ∀ c, (s.counter c).running = false) (n : LineId) (new : Level) :
    drive n new s = { s with lines := s.lines.put n { s.line n with sampled := new, debounced := new } } := by
  unfold drive
  dsimp only
  split
  · next same =>
    have line : { s.line n with sampled := new, debounced := new } = { s.line n with sampled := new } := by
      rw [← same]
    rw [line]
    rfl
  · have edge : lineEdge n new (s.modLine n fun x => { x with sampled := new }) =
        (s.modLine n fun x => { x with sampled := new }).modLine n fun x => { x with debounced := new } := by
      unfold lineEdge
      dsimp only
      split
      · exact clockSource_stopped (s := (s.modLine n _).modLine n _) stopped _
      · rfl
    rw [edge]
    simp [State.modLine, State.line]

theorem followTally_stopped (stopped : ∀ c, (s.counter c).running = false) (n : LineId) :
    followTally s n = { s with lines := s.lines.put n ((s.line n).following s) } := by
  unfold followTally CueLine.following
  split
  · exact drive_stopped stopped n _
  · show s = { s with lines := s.lines.put n (s.lines.get n) }
    rw [Tbl.put_get]

theorem tallyLevel_lines (T : Tbl CueLine 8) (x : Tally) : tallyLevel { s with lines := T } x = tallyLevel s x := by
  cases x <;> rfl

/-- With every counter STOPPED the tallies reach the lines alone. -/
theorem settleTallies_stopped (stopped : ∀ c, (s.counter c).running = false) :
    ∃ T : Tbl CueLine 8, settleTallies s = { s with lines := T } ∧ ∀ n, T.get n = (s.line n).following s := by
  have folded (l : List LineId) : l.foldl followTally s =
      { s with lines := l.foldl (fun T n => T.put n ((T.get n).following s)) s.lines } := by
    induction l using List.reverseRecOn with
    | nil => rfl
    | append_singleton l n ih =>
      rw [List.foldl_append, List.foldl_append, ih]
      generalize l.foldl (fun T n => T.put n ((T.get n).following s)) s.lines = T
      refine (followTally_stopped (s := { s with lines := T }) stopped n).trans ?_
      have same (x : CueLine) : x.following { s with lines := T } = x.following s := by
        unfold CueLine.following
        rw [tallyLevel_lines]
      rw [same]
      rfl
  refine ⟨_, folded _, fun n => ?_⟩
  rw [Tbl.get_foldl_put (fun _ x => x.following s) n _ s.lines (List.nodup_finRange 8), if_pos (List.mem_finRange n)]
  rfl

end

/-! ### The events (R61, R63) -/

/-- Entries in index order stand where the event of the part appended them (R63). -/
theorem oneEvent_of_sorted {f : State → State} {s t : State} {l : List LogEntry} (step : f s = t)
    (log : t.log = s.log ++ l) (sorted : l.Pairwise fun x y => x.event.val ≤ y.event.val) : oneEvent f s = t := by
  have same : (f s).log.take s.log.length ++ sortEntries ((f s).log.drop s.log.length) = (f s).log := by
    rw [step, log, List.take_left, List.drop_left, sortEntries_of_sorted sorted]
  refine Eq.trans ?_ step
  show { f s with log := (f s).log.take s.log.length ++ sortEntries ((f s).log.drop s.log.length) } = f s
  rw [same]

/-- RESTART closes the event. -/
def restartEnds (s : State) (e : EventId) : Bool :=
  decide ((s.event e).state = .cueing ∨ (s.event e).state = .active)

/-- The record of an event that RESTART closes. -/
def restartClosed (s : State) (e : EventId) : Event := { s.event e with
  state := .cancelled, outcome := some .cancelled, slot := none
  flags := if (s.event e).state = .active then { (s.event e).flags with truncated := true } else (s.event e).flags }

theorem restartEvent_eq {s u : State} {e : EventId} (same : u.event e = s.event e) :
    restartEvent u e = if restartEnds s e = true then { u with
      events := u.events.put e (restartClosed s e)
      log := u.log ++ [entryOf e (restartClosed s e) .cancelled u.now] } else u := by
  cases state : (s.event e).state with
  | cueing =>
    have closed : (u.event e).closedAs .cancelled {} = restartClosed s e := by
      simp only [Event.closedAs, restartClosed, same, state, OutFlags.union_none, reduceCtorEq, if_false]
      rfl
    have ends : restartEnds s e = true := decide_eq_true (.inl state)
    simp only [restartEvent, same, state]
    rw [closeEvent_live (live_cueing (same ▸ state)), closed, if_pos ends]
  | active =>
    have closed : (u.event e).closedAs .cancelled fTruncated = restartClosed s e := by
      simp [Event.closedAs, restartClosed, same, state, OutFlags.union, fTruncated]
      rfl
    have ends : restartEnds s e = true := decide_eq_true (.inr state)
    simp only [restartEvent, same, state]
    rw [closeEvent_live (live_active (same ▸ state)), closed, if_pos ends]
  | _ =>
    have stays : restartEnds s e = false := by simp [restartEnds, state]
    simp only [restartEvent, same, state, stays]
    rfl

/-- The events that RESTART closes, in index order (R61). -/
theorem restartEvents_eq (s : State) (l : List EventId) (distinct : l.Nodup) :
    ∃ E : Tbl Event 256, l.foldl restartEvent s = { s with
      events := E
      log := s.log ++ (l.filter (restartEnds s)).map fun e => entryOf e (restartClosed s e) .cancelled s.now } ∧
      ∀ e, E.get e = if e ∈ l ∧ restartEnds s e = true then restartClosed s e else s.event e := by
  induction l using List.reverseRecOn with
  | nil =>
    refine ⟨s.events, ?_, fun e => ?_⟩
    · show s = { s with log := s.log ++ [] }
      rw [List.append_nil]
    · rw [if_neg fun h => List.not_mem_nil h.1]
      rfl
  | append_singleton l e ih =>
    obtain ⟨first, -, apart⟩ := List.nodup_append.1 distinct
    have new : e ∉ l := fun mem => apart e mem e List.mem_cons_self rfl
    obtain ⟨E, folded, entries⟩ := ih first
    rw [List.foldl_append, folded, List.foldl_cons, List.foldl_nil, restartEvent_eq (s := s) (by
      refine (entries e).trans (if_neg fun h => new h.1))]
    cases ends : restartEnds s e with
    | true =>
      refine ⟨E.put e (restartClosed s e), ?_, fun d => ?_⟩
      · rw [if_pos rfl, List.filter_append, List.map_append, ← List.append_assoc]
        simp [ends]
      · rw [Tbl.get_put]
        by_cases same : d = e
        · subst same
          simp [ends]
        · rw [entries d]
          simp [same]
    | false =>
      refine ⟨E, ?_, fun d => ?_⟩
      · rw [if_neg Bool.false_ne_true, List.filter_append]
        simp [ends]
      · rw [entries d]
        by_cases same : d = e
        · subst same
          simp [ends]
        · simp [same]

end Sys2Proof.Machine
end

section
/-!
PROOFS. RESTART as a whole (R43, R61, R107, R122, R138, R156, R170, R183).
-/
namespace Sys2Proof.Machine
set_option Elab.async false

section
variable {s : State}

/-! ### The service contexts (R43) -/

/-- A service context after RESTART, by its state and its lane. -/
def restartedSvc (s : State) (v : SvcId) (x : Service) : Service :=
  if x.state = .off then x.restarted
  else if x.state = .network then { x.restarted with dark := x.dark || x.lossWaiting }
  else { x.restarted with state := .network, networkMark := true, dark := x.dark || !s.laneUp v }

theorem restartService_eq (T : Tbl Service 64) (v : SvcId) : restartService { s with services := T } v =
    { s with services := T.put v (restartedSvc s v (T.get v)) } := by
  unfold restartService restartedSvc
  dsimp only
  cases state : (State.svc { s with services := T } v).state with
  | off => rw [if_pos (by exact state)]; rfl
  | network => rw [if_neg (by rw [show (T.get v).state = _ from state]; decide), if_pos (by exact state)]; rfl
  | _ =>
    rw [if_neg (by rw [show (T.get v).state = _ from state]; decide),
      if_neg (by rw [show (T.get v).state = _ from state]; decide)]
    rfl

theorem restartServices_eq (s : State) : ∃ T : Tbl Service 64,
    (List.finRange 64).foldl restartService s = { s with services := T } ∧
      ∀ v, T.get v = restartedSvc s v (s.svc v) := by
  have folded (l : List SvcId) : l.foldl restartService s =
      { s with services := l.foldl (fun T v => T.put v (restartedSvc s v (T.get v))) s.services } := by
    induction l using List.reverseRecOn with
    | nil => rfl
    | append_singleton l v ih =>
      rw [List.foldl_append, List.foldl_append, ih]
      exact restartService_eq _ v
  refine ⟨_, folded _, fun v => ?_⟩
  rw [Tbl.get_foldl_put (restartedSvc s) v _ s.services (List.nodup_finRange 64), if_pos (List.mem_finRange v)]
  rfl

/-! ### The store port (R122) -/

/-- The end of a tenure with no cell wanted and nothing to resume (R112, R118). -/
theorem endTenure_unwanted (resume : s.port.resume = false) (unwanted : ∀ k, (s.slot k).wants = false) :
    (endTenure s).port = { s.port with
      phase := if s.port.gap = 0 then .idle else .releasing, gapCount := s.port.gap } := by
  by_cases noGap : s.port.gap = 0
  · have over_ : endTenure s = gapOver (s.modPort fun p => { p with phase := .releasing, gapCount := p.gap }) :=
      if_pos noGap
    have quiet : PortAsksWhenWanted { s with port := { s.port with phase := .idle, gapCount := 0 } } :=
      fun _ => ⟨resume, fun _ => unwanted⟩
    rw [over_, if_pos noGap, noGap]
    exact congrArg State.port (portTest_eq quiet)
  · rw [endTenure_of_gap (Nat.one_le_iff_ne_zero.2 noGap), if_neg noGap]

/-- RESTART on the port reaches the port and the free value alone (R120, R122). -/
theorem restartStorePort_eq (s : State) (unwanted : ∀ k, (s.slot k).wants = false) : ∃ p d,
    restartStorePort s = { s with port := p, draws := d } ∧
    (¬BetweenTransfers s → p = s.port.dropped ∧ d = s.draws) ∧
    (p = s.port.dropped ∨ p = { s.port.dropped with
      phase := if s.port.gap = 0 then .idle else .releasing, gapCount := s.port.gap }) := by
  rcases restartStorePort_cases s with ⟨-, dropped⟩ | ⟨owner, abandon, ⟨f, fetch, answered⟩, kept | ended⟩
  · exact ⟨_, _, dropped, fun _ => ⟨rfl, rfl⟩, .inl rfl⟩
  · exact ⟨_, _, kept, fun apart => absurd ⟨owner, abandon, f, fetch, .inr answered⟩ apart, .inl rfl⟩
  · refine ⟨_, _, ended, fun apart => absurd ⟨owner, abandon, f, fetch, .inr answered⟩ apart, .inr ?_⟩
    exact endTenure_unwanted (s := { s.modPort Port.dropped with draws := s.draws + 1 }) rfl unwanted

end

/-- Settles O59: RESTART block by block. -/
theorem restartKeepsTheTables : Obligations.RestartKeepsTheTables := by
  intro x s
  have step : ∀ i, exec (.restart x i) s = .next (record (doRestart x i s)) := fun _ => rfl
  refine ⟨fun i beyond => ?_, fun cls => ?_, ?_⟩
  · rw [step, doRestart, entryAt_ge (Nat.one_le_iff_ne_zero.2 beyond)]
    rfl
  · rw [step, doRestart, show (0 : Nat) = (0 : Fin 1).val from rfl, entryAt_val, decide_eq_true cls]
    rfl
  · intro cls ends closed idled dropped
    have carried : exec (.restart x 0) s = .next ((restartPart s).codeAnswered .ok) := by
      rw [step, doRestart, show (0 : Nat) = (0 : Fin 1).val from rfl, entryAt_val, decide_eq_false (not_not.2 cls)]
      rfl
    obtain ⟨E, folded, events⟩ := restartEvents_eq s (List.finRange 256) (List.nodup_finRange 256)
    have ordered : (((List.finRange 256).filter (restartEnds s)).map fun e =>
        entryOf e (restartClosed s e) .cancelled s.now).Pairwise fun x y => x.event.val ≤ y.event.val :=
      List.pairwise_map.2 (((List.pairwise_lt_finRange 256).filter _).imp fun below => below.le)
    have closing := oneEvent_of_sorted (f := fun s => (List.finRange 256).foldl restartEvent s) folded rfl ordered
    generalize closedState : ({ s with
      events := E
      log := s.log ++ ((List.finRange 256).filter (restartEnds s)).map fun e =>
        entryOf e (restartClosed s e) .cancelled s.now } : State) = u at closing
    obtain ⟨S, served, services⟩ := restartServices_eq u
    let b : State := { u with
      services := S, slots := Vector.replicate 16 Slot.reset, waitList := []
      outLanes := u.outLanes.map fun o => { o with held := Vector.replicate 64 false }
      alerts := u.alerts.map Alert.restarted, counters := u.counters.map fun c => { c with running := false }
      due := u.due.filter fun d => !d.isClock }
    have blocks : restartBlocks u = restartStorePort b := by
      unfold restartBlocks
      dsimp only
      rw [served]
    obtain ⟨p, d, port, still, either⟩ := restartStorePort_eq b fun k => by
      rw [State.slot, Tbl.get_replicate]
      rfl
    obtain ⟨L, settled, lines⟩ := settleTallies_stopped (s := { b with port := p, draws := d }) fun c => by
      rw [State.counter, Tbl.get_map]
    have result : restartPart s = { b with port := p, draws := d, lines := L } := by
      unfold restartPart
      rw [closing, blocks, port, settled]
    subst closedState
    refine ⟨restartPart s, carried, ?_⟩
    rw [result]
    refine ⟨rfl, fun e => ?_, fun v => ?_, fun a => ?_, fun c => ?_, fun n => ?_, fun n => ?_, still, either⟩
    · refine (events e).trans ?_
      simp only [List.mem_finRange, true_and]
      rfl
    · refine (services v).trans ?_
      rfl
    · exact Tbl.get_map _ _ _
    · exact Tbl.get_map _ _ _
    · exact Tbl.get_map _ _ _
    · refine (lines n).trans ?_
      have level (y : Tally) : tallyLevel { b with port := p, draws := d, lines := L } y =
          tallyLevel { b with port := p, draws := d } y := tallyLevel_lines (s := { b with port := p, draws := d }) L y
      unfold CueLine.following
      rw [level]
      cases direction : (s.line n).direction with
      | input => exact (if_neg (by exact fun h => nomatch direction.symm.trans h)).trans (if_pos rfl).symm
      | output => exact (if_pos direction).trans (if_neg (by decide)).symm

end Sys2Proof.Machine
end

section
/-!
PROOFS. The expiry of a counter: its mode, its target and the counter above (R167 to R169).
-/
namespace Sys2Proof.Machine
set_option Elab.async false

theorem oneEvent_congr {f g : State → State} {s u : State} (step : f s = g u) (log : s.log = u.log) :
    oneEvent f s = oneEvent g u := by
  unfold oneEvent
  rw [step, log]

/-- The taking of a clock event, once it is no longer due, is no news to a filter that drops it. -/
theorem filter_erase {α : Type} [BEq α] [LawfulBEq α] {p : α → Bool} {a : α} (dropped : p a = false) :
    ∀ l : List α, (l.erase a).filter p = l.filter p
  | [] => rfl
  | b :: l => by
    rw [List.erase_cons]
    by_cases same : b = a
    · subst same
      rw [if_pos BEq.rfl, List.filter_cons_of_neg (ne_true_of_eq_false dropped)]
    · rw [if_neg (by simpa using same), List.filter_cons, List.filter_cons, filter_erase dropped l]

section
variable {c d : CounterId} {x : Counter} {s t : State}

/-- The steps that wait once the counter has expired (R167, log entry 27). -/
def dueAfterExpiry (s : State) (c : CounterId) : List Due :=
  match (s.counter c).mode with
  | .oneShot => s.due.filter fun d => decide (d ≠ Due.clock c ∧ d ≠ Due.pulse c)
  | .periodic => s.due.erase (.clock c)

/-- The state in which a counter's expiry has set it going or stopped it, its target still to be fired (R167). -/
def State.expired (s : State) (c : CounterId) : State := { s with
  counters := s.counters.put c (s.counter c).expired, due := dueAfterExpiry s c }

theorem expireCounter_eq (c : CounterId) (s : State) :
    expireCounter c (s.taking (.clock c)) = s.expired c := by
  unfold expireCounter State.expired dueAfterExpiry
  dsimp only
  cases mode : (s.counter c).mode with
  | periodic => exact if_neg (by rw [show ((s.taking (.clock c)).counter c).mode = _ from mode]; decide)
  | oneShot =>
    refine (if_pos (by exact mode)).trans ((dropClocks_eq _ c).trans ?_)
    show { s with
      counters := s.counters.put c (s.counter c).expired
      due := (s.due.erase (.clock c)).filter fun d => decide (d ≠ Due.clock c ∧ d ≠ Due.pulse c) } = _
    rw [filter_erase (by simp)]

theorem counterAbove_top (top : c.val = 15) : counterAbove c = none := by
  unfold counterAbove index?
  exact dif_neg (by omega)

theorem counterAbove_next (next : d.val = c.val + 1) : counterAbove c = some d := by
  have inside : c.val + 1 < 16 := next ▸ d.isLt
  unfold counterAbove index?
  rw [dif_pos inside]
  exact congrArg some (Fin.ext next.symm)

theorem counterAbove_eq (above : counterAbove c = some d) : d.val = c.val + 1 := by
  unfold counterAbove index? at above
  split at above
  · exact (congrArg Fin.val (Option.some.inj above)).symm
  · exact nomatch above

/-- The last clock event of a counter with none above it (R166, R167). -/
theorem takeClock_top (n : Nat) (running : (s.counter c).running = true) (last : (s.counter c).count ≤ 1)
    (top : counterAbove c = none) : takeClock (n + 1) c s = fireTarget (s.counter c).target (expireCounter c s) := by
  rw [takeClock]
  dsimp only
  rw [if_neg (by rw [running]; decide), if_neg (Nat.not_lt.2 last), top]

/-- The last clock event of a counter: the expiry, the target, and the counter above (R166, R167, R169). -/
theorem takeClock_passes (n : Nat) (running : (s.counter c).running = true) (last : (s.counter c).count ≤ 1)
    (above : counterAbove c = some d) (step : fireTarget (s.counter c).target (expireCounter c s) = t) :
    takeClock (n + 1) c s =
      if (t.counter d).source = .expiry ∧ gateOpen t (t.counter d).gate then takeClock n d t else t := by
  rw [takeClock]
  dsimp only
  rw [if_neg (by rw [running]; decide), if_neg (Nat.not_lt.2 last), above, step]

theorem takeClock_stopped (n : Nat) (stopped : (s.counter c).running = false) : takeClock n c s = s := by
  cases n with
  | zero => rfl
  | succ n => exact if_pos (by rw [stopped]; rfl)

theorem takeClock_counts (n : Nat) (running : (s.counter c).running = true) (more : 1 < (s.counter c).count) :
    takeClock (n + 1) c s = { s with counters := s.counters.put c { s.counter c with count := (s.counter c).count - 1 } } := by
  rw [takeClock]
  dsimp only
  rw [if_neg (by rw [running]; decide), if_pos more]
  rfl

/-- An expiry whose counter above does not count it fires its target and does no more (R168). -/
theorem takeClock_fires (running : (s.counter c).running = true) (last : (s.counter c).count ≤ 1)
    (deaf : c.val = 15 ∨ ∀ d : CounterId, d.val = c.val + 1 →
      (s.counter d).source ≠ .expiry ∨ (s.counter d).running = false) :
    takeClock 16 c (s.taking (.clock c)) = fireTarget (s.counter c).target (s.expired c) := by
  have fire : fireTarget (s.counter c).target (expireCounter c (s.taking (.clock c))) =
      fireTarget (s.counter c).target (s.expired c) := by
    rw [expireCounter_eq]
  have counters : (fireTarget (s.counter c).target (s.expired c)).counters = (s.expired c).counters :=
    (Kept.fireTarget (b := false) _ (Kept.refl (s.expired c))).counters rfl
  cases above : counterAbove c with
  | none => exact (takeClock_top (s := s.taking (.clock c)) 15 running last above).trans fire
  | some d =>
    have next := counterAbove_eq above
    have apart : d ≠ c := fun same => by
      rw [same] at next
      omega
    have counter : (fireTarget (s.counter c).target (s.expired c)).counter d = s.counter d :=
      (congrArg (Tbl.get · d) counters).trans (Tbl.get_put_ne _ apart _)
    refine (takeClock_passes (s := s.taking (.clock c)) 15 running last above fire).trans ?_
    rcases deaf with top | deaf
    · exact absurd d.isLt (by omega)
    · rcases deaf d next with other | stopped
      · exact if_neg fun h => other (counter ▸ h.1)
      · have ignored := takeClock_stopped 15 ((congrArg Counter.running counter).trans stopped)
        rw [ignored, ite_self]

end

end Sys2Proof.Machine
end

section
/-!
PROOFS. The targets of an expiry (O28).
-/
namespace Sys2Proof.Machine
set_option Elab.async false

theorem closeEvent_port (e : EventId) (o : Outcome) (f : OutFlags) (s : State) : (closeEvent e o f s).port = s.port := by
  unfold closeEvent
  split
  · rfl
  · rfl

theorem claimSlot_port (k : SlotId) (o : Owner) (s : State) : (claimSlot k o s).port = s.port := by
  cases o <;> rfl

theorem cue_port (v : SvcId) (e : EventId) (s : State) : (cue v e s).port = s.port := by
  unfold cue
  dsimp only
  split
  · exact claimSlot_port _ _ _
  · rfl

/-- SPLICE_NOW leaves the port alone (R53). -/
theorem spliceEvent_port (e : EventId) (s : State) : (spliceEvent e s).port = s.port := by
  unfold spliceEvent
  dsimp only
  split
  · exact closeEvent_port _ _ _ _
  · split
    · split
      · exact cue_port _ _ _
      · exact closeEvent_port _ _ _ _
    · exact closeEvent_port _ _ _ _

section
variable {c : CounterId} {s t : State}

/-- An expiry that is due is one event of the cue unit (R167). -/
theorem exec_counterExpiry (due : Due.clock c ∈ s.due) : exec (.counterExpiry c) s =
    .next (finishFrom (s.taking (.clock c)) (oneEvent (takeClock 16 c) (s.taking (.clock c)))) := by
  have isDue : s.isDue (.clock c) = true := isDue_iff.2 due
  exact congrArg Host.Outcome.next ((if_pos isDue).trans (takeDue_of_mem due))

theorem exec_counterExpiry_settled (due : Due.clock c ∈ s.due)
    (step : takeClock 16 c (s.taking (.clock c)) = t) (log : t.log = s.log) (fetch : t.port.fetch = s.port.fetch)
    (settled : Settled t) : exec (.counterExpiry c) s = .next t := by
  rw [exec_counterExpiry due, oneEvent_eq step (.inl log), finishFrom_eq (cellDropped_of_fetch_eq (by exact fetch)), finish_eq settled]

end

/-- Settles O28. -/
theorem expiryFiresAndPassesOn : Obligations.ExpiryFiresAndPassesOn := by
  intro c s x expired settled xEq due running always last expiredEq fired
  subst xEq expiredEq
  have firedEq : s.expired c = fired := rfl
  have quiet : Settled fired := settled
  refine ⟨fun deaf => ?_, fun d next target source running' always' more => ?_⟩
  · have fires := takeClock_fires running last.le deaf
    rw [firedEq] at fires
    have same {t : State} (target : fireTarget (s.counter c).target fired = t) (log : t.log = s.log)
        (fetch : t.port.fetch = s.port.fetch) (settled : Settled t) : exec (.counterExpiry c) s = .next t :=
      exec_counterExpiry_settled due (fires.trans target) log fetch settled
    have alertPut (a : AlertId) (y : Alert) (live : y.state = (s.alert a).state) :
        Settled { fired with alerts := s.alerts.put a y } := by
      obtain ⟨lines, asks⟩ := quiet
      exact ⟨putAlert_lines (s := fired) (by rw [live]; exact Iff.rfl) lines, asks⟩
    refine ⟨fun target => ?_, ?_, ?_, ?_, ?_, ?_, ?_⟩
    · exact same (by rw [target]; rfl) rfl rfl quiet
    · intro a target live
      have renewed : fireTarget (s.counter c).target fired = renewLease a fired := by
        rcases target with on | renew
        · rw [on]
          exact if_pos live
        · rw [renew]
          exact if_pos ((live_iff fired a).2 live)
      exact same renewed rfl rfl (alertPut a _ rfl)
    · intro a target idle barred
      have blocked : fireTarget (s.counter c).target fired = fired.modAlert a fun y => { y with blocked := true } := by
        rw [target]
        refine (if_neg (not_not.2 idle)).trans (if_pos ?_)
        rcases barred with masked | bare
        · rw [show (fired.alert a).masked = true from masked]
          rfl
        · rw [show (fired.alert a).priority = none from bare]
          exact Bool.or_true _
      exact same blocked rfl rfl (alertPut a _ rfl)
    · intro a target idle open_ some
      have activated : takeClock 16 c (s.taking (.clock c)) = activate a fired := by
        rw [fires, target]
        refine (if_neg (not_not.2 idle)).trans (if_neg ?_)
        rw [show (fired.alert a).masked = false from open_,
          Option.isNone_eq_false_iff.2 (show (fired.alert a).priority.isSome = true from some)]
        decide
      have once : oneEvent (takeClock 16 c) (s.taking (.clock c)) = activate a fired :=
        (oneEvent_congr activated rfl).trans (oneEvent_oneEvent _ fired)
      refine ⟨_, exec_counterExpiry due, ?_⟩
      rw [once]
      have step : exec (.alertOn ⟨0, 0, 0⟩ a.val) fired = .next (record (doAlertOn ⟨0, 0, 0⟩ a.val fired)) := rfl
      rw [step, doAlertOn, entryAt_val, show decide ((0 : Fin 4) ≠ 0) = false from rfl, refuseIf_false,
        if_neg (ne_true_of_eq_false (live_eq_false (s := fired).2 idle)), show (fired.alert a).masked = false from open_,
        Option.isNone_eq_false_iff.2 (show (fired.alert a).priority.isSome = true from some)]
      rfl
    · intro a target idle
      refine same ?_ rfl rfl quiet
      rw [target]
      exact if_neg (ne_true_of_eq_false (live_eq_false.2 idle))
    · intro e target scheduled
      have spliced : takeClock 16 c (s.taking (.clock c)) = spliceEvent e fired := by
        rw [fires, target]
        exact if_pos scheduled
      have once : oneEvent (takeClock 16 c) (s.taking (.clock c)) = oneEvent (spliceEvent e) fired :=
        oneEvent_congr spliced rfl
      have fetch : (oneEvent (spliceEvent e) fired).port.fetch = (s.taking (.clock c)).port.fetch :=
        congrArg Port.fetch (spliceEvent_port e fired)
      refine ⟨_, exec_counterExpiry due, ?_⟩
      rw [once, finishFrom_eq (cellDropped_of_fetch_eq fetch)]
      have step : exec (.spliceNow ⟨0, 0, 0⟩ e.val) fired = .next (record (doSpliceNow ⟨0, 0, 0⟩ e.val fired)) := rfl
      rw [step, doSpliceNow, entryAt_val, allowed_eq_true (Fin.zero_le _), Bool.not_true, refuseIf_false,
        decide_eq_false (not_not.2 (show (fired.event e).state = .scheduled from scheduled)), refuseIf_false]
      rfl
    · intro e target other
      refine same ?_ rfl rfl quiet
      rw [target]
      exact if_neg other
  · have apart : d ≠ c := fun same => by
      rw [same] at next
      omega
    have counter : fired.counter d = s.counter d := Tbl.get_put_ne _ apart _
    have fire : fireTarget (s.counter c).target (expireCounter c (s.taking (.clock c))) = fired := by
      rw [target, expireCounter_eq]
      rfl
    have passes := takeClock_passes (s := s.taking (.clock c)) 15 running last.le (counterAbove_next next) fire
    rw [if_pos ⟨by rw [counter]; exact source, by rw [counter, always']; rfl⟩,
      takeClock_counts 14 (by rw [counter]; exact running') (by rw [counter]; exact more), counter] at passes
    exact exec_counterExpiry_settled due passes rfl rfl quiet

end Sys2Proof.Machine
end

section
/-!
PROOFS. What the report of its owner to a service leaves alone (R40, R41, R145).
-/
namespace Sys2Proof.Machine
set_option Elab.async false

/-! ### What is watched while alert ownership is recomputed -/

/-- What is watched while a report of ownership is carried out: the channels, the port before it, the owners of all
services but the one reported to, and what the end or the activation of `channel` says of a slot, an event or a service. -/
structure Watch where
  alerts : Tbl Alert 8
  port : Port
  service : Option SvcId
  owner : SvcId → Option AlertId
  channel : AlertId
  clips : ClipSource
  spared : Option SlotId
  released : Option SlotId
  closed : Option EventId
  doomed : Option EventId
  idle : Option SvcId

/-- The slot of the channel, which no event names. -/
def Spared (p : Watch) (k : SlotId) (t : State) : Prop :=
  (t.slot k).owner = some (.alert p.channel) ∧ (t.slot k).clips = p.clips ∧ ∀ e, (t.event e).slot ≠ some k

/-- An event that was MISSED with ALERT. -/
def MissedByAlert (e : EventId) (t : State) : Prop :=
  (t.event e).state = .missed ∧ (t.event e).outcome = some .missed ∧ (t.event e).flags.alert = true

/-- An event that an alert ended early, or will have ended: no CUEING service has it. -/
def AbortedByAlert (e : EventId) (t : State) : Prop :=
  ((t.event e).outcome = some .aborted ∧ (t.event e).flags.alert = true ∧ (t.event e).flags.truncated = true) ∧
    ∀ v, (t.svc v).event = some e → (t.svc v).state ≠ .cueing

/-- A service in NETWORK, dark, with no claim on a slot. -/
def DarkInNetwork (v : SvcId) (t : State) : Prop :=
  (t.svc v).state = .network ∧ (t.svc v).dark = true ∧ Claimant.loss v ∉ t.waitList

structure Steady (p : Watch) (t : State) : Prop where
  alerts : t.alerts = p.alerts
  phase : t.port.phase = p.port.phase
  fetch : p.port.phase = .owner → t.port.fetch = p.port.fetch
  apart : ¬BetweenTransfers t
  owners : ∀ v, p.service ≠ some v → (t.svc v).owner = p.owner v
  spared : ∀ k, p.spared = some k → Spared p k t
  released : ∀ k, p.released = some k → (t.slot k).owner ≠ some (.alert p.channel)
  closed : ∀ e, p.closed = some e → MissedByAlert e t
  doomed : ∀ e, p.doomed = some e → AbortedByAlert e t
  idle : ∀ v, p.idle = some v → p.service ≠ some v → DarkInNetwork v t

section
variable {p : Watch} {s t : State} {v w : SvcId} {k : SlotId} {e : EventId}

theorem Steady.foldl {α : Type} {f : State → α → State} (step : ∀ u a, Steady p u → Steady p (f u a)) :
    ∀ (l : List α) {t : State}, Steady p t → Steady p (l.foldl f t)
  | [], _, h => h
  | a :: l, _, h => Steady.foldl step l (step _ a h)

/-! ### Changes of one entry -/

/-- A service changed without a new owner, a new current event to cue, or a way out of NETWORK (or the one that is
reported to). -/
theorem Steady.modSvc {f : Service → Service}
    (owner : p.service ≠ some w → (f (t.svc w)).owner = (t.svc w).owner)
    (cueing : (f (t.svc w)).state = .cueing → (t.svc w).state = .cueing ∧ (f (t.svc w)).event = (t.svc w).event)
    (network : p.idle = some w → p.service ≠ some w → (t.svc w).state = .network → (t.svc w).dark = true →
      (f (t.svc w)).state = .network ∧ (f (t.svc w)).dark = true)
    (h : Steady p t) : Steady p (t.modSvc w f) where
  alerts := h.alerts
  phase := h.phase
  fetch := h.fetch
  apart := h.apart
  owners := fun v hv => by
    by_cases same : v = w
    · subst same
      rw [State.modSvc_self, owner hv]
      exact h.owners v hv
    · rw [State.modSvc_ne _ _ same]
      exact h.owners v hv
  spared := h.spared
  released := h.released
  closed := h.closed
  doomed := fun e he => by
    obtain ⟨flags, apart⟩ := h.doomed e he
    refine ⟨flags, fun v => ?_⟩
    by_cases same : v = w
    · subst same
      rw [State.modSvc_self]
      intro event state
      obtain ⟨was, event'⟩ := cueing state
      exact apart v (event'.symm.trans event) was
    · rw [State.modSvc_ne _ _ same]
      exact apart v
  idle := fun v hv reported => by
    obtain ⟨state, dark, claim⟩ := h.idle v hv reported
    by_cases same : v = w
    · subst same
      obtain ⟨state', dark'⟩ := network hv reported state dark
      refine ⟨?_, ?_, claim⟩
      · rw [State.modSvc_self]
        exact state'
      · rw [State.modSvc_self]
        exact dark'
    · refine ⟨?_, ?_, claim⟩
      · rw [State.modSvc_ne _ _ same]
        exact state
      · rw [State.modSvc_ne _ _ same]
        exact dark

/-- A service changed in fields that are not watched. -/
theorem Steady.modSvc_rest {f : Service → Service} (owner : (f (t.svc w)).owner = (t.svc w).owner)
    (state : (f (t.svc w)).state = (t.svc w).state) (event : (f (t.svc w)).event = (t.svc w).event)
    (dark : (t.svc w).dark = true → (f (t.svc w)).dark = true) (h : Steady p t) : Steady p (t.modSvc w f) :=
  h.modSvc (fun _ => owner) (fun cueing => ⟨state.symm.trans cueing, event⟩)
    (fun _ _ network isDark => ⟨state.trans network, dark isDark⟩)

/-- A slot changed that keeps its owner and its clips. -/
theorem Steady.modSlot {f : Slot → Slot} (owner : (f (t.slot k)).owner = (t.slot k).owner)
    (clips : (f (t.slot k)).clips = (t.slot k).clips) (h : Steady p t) : Steady p (t.modSlot k f) where
  alerts := h.alerts
  phase := h.phase
  fetch := h.fetch
  apart := h.apart
  owners := h.owners
  spared := fun j hj => by
    obtain ⟨owner', clips', events⟩ := h.spared j hj
    by_cases same : j = k
    · subst same
      refine ⟨?_, ?_, events⟩
      · rw [State.modSlot_self, owner]
        exact owner'
      · rw [State.modSlot_self, clips]
        exact clips'
    · refine ⟨?_, ?_, events⟩
      · rw [State.modSlot_ne _ _ same]
        exact owner'
      · rw [State.modSlot_ne _ _ same]
        exact clips'
  released := fun j hj => by
    by_cases same : j = k
    · subst same
      rw [State.modSlot_self, owner]
      exact h.released j hj
    · rw [State.modSlot_ne _ _ same]
      exact h.released j hj
  closed := h.closed
  doomed := h.doomed
  idle := h.idle

/-- A slot that is not the channel's changed to one of another owner. -/
theorem Steady.putSlot {x : Slot} (other : p.spared ≠ some k) (owner : ∀ a, x.owner ≠ some (.alert a)) (h : Steady p t) :
    Steady p (t.modSlot k fun _ => x) where
  alerts := h.alerts
  phase := h.phase
  fetch := h.fetch
  apart := h.apart
  owners := h.owners
  spared := fun j hj => by
    obtain ⟨owner', clips', events⟩ := h.spared j hj
    have apart : j ≠ k := fun same => other (same ▸ hj)
    refine ⟨?_, ?_, events⟩
    · rw [State.modSlot_ne _ _ apart]
      exact owner'
    · rw [State.modSlot_ne _ _ apart]
      exact clips'
  released := fun j hj => by
    by_cases same : j = k
    · subst same
      rw [State.modSlot_self]
      exact owner p.channel
    · rw [State.modSlot_ne _ _ same]
      exact h.released j hj
  closed := h.closed
  doomed := h.doomed
  idle := h.idle

/-- A wait list without new claims of the service that is watched. -/
theorem Steady.waiting {l : List Claimant} (claims : ∀ v, p.idle = some v → p.service ≠ some v →
    Claimant.loss v ∉ t.waitList → Claimant.loss v ∉ l) (h : Steady p t) : Steady p { t with waitList := l } where
  alerts := h.alerts
  phase := h.phase
  fetch := h.fetch
  apart := h.apart
  owners := h.owners
  spared := h.spared
  released := h.released
  closed := h.closed
  doomed := h.doomed
  idle := fun v hv reported => by
    obtain ⟨state, dark, claim⟩ := h.idle v hv reported
    exact ⟨state, dark, claims v hv reported claim⟩

/-- An event closed: the one that is doomed, as ABORTED only. -/
theorem Steady.closeEvent {o : Outcome} (f : OutFlags) (aborts : p.doomed = some e → o = .aborted) (h : Steady p t) :
    Steady p (closeEvent e o f t) := by
  by_cases live : (t.event e).live = true
  · rw [closeEvent_live live]
    have event (d : EventId) : State.event { t with
        events := t.events.put e ((t.event e).closedAs o f)
        log := t.log ++ [entryOf e ((t.event e).closedAs o f) o t.now] } d =
          if d = e then (t.event e).closedAs o f else t.event d := Tbl.get_put _ _ _ _
    refine ⟨h.alerts, h.phase, h.fetch, h.apart, h.owners, fun j hj => ?_, h.released, fun d hd => ?_, fun d hd => ?_,
      h.idle⟩
    · obtain ⟨owner, clips, events⟩ := h.spared j hj
      refine ⟨owner, clips, fun d => ?_⟩
      rw [event]
      split
      · exact nofun
      · exact events d
    · obtain ⟨missed, -, -⟩ := h.closed d hd
      have apart : d ≠ e := fun same => by
        rw [← same, Event.live, missed] at live
        exact nomatch live
      unfold MissedByAlert
      rw [event, if_neg apart]
      exact h.closed d hd
    · obtain ⟨⟨outcome, alert, truncated⟩, cueing⟩ := h.doomed d hd
      refine ⟨?_, cueing⟩
      rw [event]
      split
      · next same =>
        subst same
        refine ⟨congrArg some (aborts hd), ?_, ?_⟩
        · exact (congrArg (· || f.alert) alert).trans (Bool.true_or _)
        · exact (congrArg (· || f.truncated) truncated).trans (Bool.true_or _)
      · exact ⟨outcome, alert, truncated⟩
  · have kept : Machine.closeEvent e o f t = t := if_neg live
    rw [kept]
    exact h

end

end Sys2Proof.Machine
end

section
/-!
PROOFS. The operations of a report of ownership on what is watched (R40, R41, R94, R100 to R104).
-/
namespace Sys2Proof.Machine
set_option Elab.async false

/-! ### The port's side of a slot given up (R120) -/

theorem slotGone_frame (k : SlotId) (t : State) (apart : ¬BetweenTransfers t) : ∃ q d,
    slotGone k t = { t with port := q, draws := d } ∧ q.phase = t.port.phase ∧
      (t.port.phase = .owner → q.fetch = t.port.fetch) ∧ ¬BetweenTransfers { t with port := q, draws := d } := by
  have same : ∃ q d, t = { t with port := q, draws := d } ∧ q.phase = t.port.phase ∧
      (t.port.phase = .owner → q.fetch = t.port.fetch) ∧ ¬BetweenTransfers { t with port := q, draws := d } :=
    ⟨t.port, t.draws, rfl, rfl, fun _ => rfl, apart⟩
  rcases Option.eq_none_or_eq_some t.port.fetch with fetch | ⟨f, fetch⟩
  · rw [slotGone_other fun f h => nomatch fetch.symm.trans h]
    exact same
  by_cases own : f.slot = k
  · cases abandon : t.port.abandon with
    | true =>
      have still : slotGone k t = t := by
        unfold slotGone
        rw [fetch]
        exact if_pos (.inr abandon)
      rw [still]
      exact same
    | false =>
      have between (done : t.port.resume = true ∨ f.answered = true) : t.port.phase ≠ .owner :=
        fun owner => apart ⟨owner, abandon, f, fetch, done⟩
      have dropped (d : Nat) : ¬BetweenTransfers { t with port := t.port.dropped, draws := d } :=
        fun ⟨_, _, _, gone, _⟩ => nomatch gone
      have abandoned (d : Nat) : ¬BetweenTransfers { t with port := { t.port with abandon := true }, draws := d } :=
        fun ⟨_, kept, _⟩ => nomatch kept
      cases resume : t.port.resume with
      | true =>
        exact ⟨_, _, slotGone_resumed fetch own abandon resume, rfl, fun owner => absurd owner (between (.inl resume)),
          dropped _⟩
      | false =>
        cases answered : f.answered with
        | true =>
          rcases slotGone_between fetch own abandon resume answered with e | e
          · exact ⟨_, _, e, rfl, fun _ => rfl, abandoned _⟩
          · exact ⟨_, _, e, rfl, fun owner => absurd owner (between (.inr answered)), dropped _⟩
        | false => exact ⟨_, _, slotGone_underWay fetch own abandon resume answered, rfl, fun _ => rfl, abandoned _⟩
  · rw [slotGone_other fun g h => by
      rw [fetch] at h
      exact Option.some.inj h ▸ own]
    exact same

section
variable {p : Watch} {t : State} {v w : SvcId} {k : SlotId} {e : EventId}

theorem Steady.slotGone (k : SlotId) (h : Steady p t) : Steady p (slotGone k t) := by
  obtain ⟨q, d, gone, phase, fetch, apart⟩ := slotGone_frame k t h.apart
  rw [gone]
  exact ⟨h.alerts, phase.trans h.phase, fun owner => (fetch (h.phase.trans owner)).trans (h.fetch owner), apart, h.owners,
    h.spared, h.released, h.closed, h.doomed, h.idle⟩

/-! ### The feeder (R92 to R104) -/

theorem Steady.seekReaders (k : SlotId) (h : Steady p t) : Steady p (seekReaders k t) := by
  refine Steady.modSlot (f := fun y => { y with readers := y.readers.map (t.slot k).sought }) rfl rfl
    (Steady.foldl (fun u r hu => ?_) _ h)
  unfold takeBase
  split
  · split
    · exact hu.modSvc_rest rfl rfl rfl id
    · exact hu
  · exact hu

theorem Steady.slipReaders (k : SlotId) (h : Steady p t) : Steady p (slipReaders k t) := by
  unfold Machine.slipReaders
  dsimp only
  split
  · refine Steady.modSlot (f := fun y => ({ y with readers := (t.slot k).slipReaders } : Slot).moveTail) rfl rfl
      (Steady.foldl (fun u r hu => ?_) _ h)
    unfold noteSlip
    split
    · exact hu
    · exact hu.modSvc_rest rfl rfl rfl id
  · exact h

theorem Steady.settleRing (k : SlotId) (h : Steady p t) : Steady p (settleRing k t) := by
  have moved {u : State} (hu : Steady p u) : Steady p ((Machine.seekReaders k u).modSlot k Slot.moveTail) :=
    (hu.seekReaders k).modSlot rfl rfl
  exact moved ((moved h).slipReaders k)

theorem Steady.attachJoin (k : SlotId) (v : SvcId) (h : Steady p t) : Steady p (attachJoin k v t) :=
  Steady.settleRing k ((h.modSlot (f := fun x => { x with
    readers := x.readers ++ [⟨v, (t.slot k).tail + BitVec.ofNat 32 (t.slot k).fastOff, .join⟩] }) rfl rfl).modSvc_rest
    (f := fun y => { y with slot := some k, shedLevel := 0, shedPattern := 0, lateness := 0 }) rfl rfl rfl id)

theorem Steady.detach (v : SvcId) (h : Steady p t) : Steady p (detach v t) := by
  unfold Machine.detach
  split
  · exact h
  · exact Steady.settleRing _ ((h.modSlot (f := fun x => { x with
      readers := x.readers.filter fun r => decide (r.svc ≠ v) }) rfl rfl).modSvc_rest (f := fun y => { y with slot := none })
      rfl rfl rfl id)

theorem Steady.emptySlot (other : p.spared ≠ some k) (h : Steady p t) : Steady p (emptySlot k t) := by
  have detached : Steady p (detachAll k t) := Steady.foldl (fun u r hu => hu.modSvc_rest rfl rfl rfl id) _ h
  have reset : Steady p ((detachAll k t).modSlot k fun _ => Slot.reset) :=
    detached.putSlot other fun _ same => nomatch (show none = some _ from same)
  exact reset.slotGone k

/-- A slot named by an event that is not the channel's. -/
theorem Steady.nameSlot (other : p.spared ≠ some k) (h : Steady p t) :
    Steady p (t.modEvent e fun x => { x with slot := some k }) := by
  have event (d : EventId) : (t.modEvent e fun x => { x with slot := some k }).event d =
      if d = e then { t.event d with slot := some k } else t.event d := by
    refine (Tbl.get_put _ _ _ _).trans ?_
    split
    · next same => rw [same]
    · rfl
  have fields (d : EventId) : ((t.modEvent e fun x => { x with slot := some k }).event d).state = (t.event d).state ∧
      ((t.modEvent e fun x => { x with slot := some k }).event d).outcome = (t.event d).outcome ∧
      ((t.modEvent e fun x => { x with slot := some k }).event d).flags = (t.event d).flags := by
    rw [event]
    split
    · exact ⟨rfl, rfl, rfl⟩
    · exact ⟨rfl, rfl, rfl⟩
  refine ⟨h.alerts, h.phase, h.fetch, h.apart, h.owners, fun j hj => ?_, h.released, fun d hd => ?_, fun d hd => ?_,
    h.idle⟩
  · obtain ⟨owner, clips, events⟩ := h.spared j hj
    refine ⟨owner, clips, fun d => ?_⟩
    rw [event]
    split
    · exact fun same => other (by rw [hj]; exact same.symm)
    · exact events d
  · obtain ⟨state, outcome, flags⟩ := fields d
    unfold MissedByAlert
    rw [state, outcome, flags]
    exact h.closed d hd
  · obtain ⟨-, outcome, flags⟩ := fields d
    unfold AbortedByAlert
    rw [outcome, flags]
    exact h.doomed d hd

theorem Steady.claimSlot {o : Owner} (other : p.spared ≠ some k) (noAlert : ∀ a, o ≠ .alert a) (h : Steady p t) :
    Steady p (claimSlot k o t) := by
  have claimed : Steady p (t.modSlot k fun _ => claimedSlot t o) :=
    h.putSlot other fun a same => noAlert a (Option.some.inj same)
  rcases claimSlot_cases k o t with ⟨e, _, step⟩ | ⟨_, step⟩
  · rw [step]
    exact claimed.nameSlot other
  · rw [step]
    exact claimed

/-- A loss fill is granted its slot: the service that is reported to, or one that waited. -/
theorem Steady.grantLoss (other : p.spared ≠ some k)
    (claimant : p.idle = some w → p.service ≠ some w → Claimant.loss w ∈ t.waitList) (h : Steady p t) :
    Steady p (grantLoss k w t) :=
  (h.claimSlot (o := .loss w) other fun _ => nofun).modSvc (fun _ => rfl)
    (fun cueing => nomatch (show SvcState.inserting = .cueing from cueing)) fun idle reported _ _ => by
    obtain ⟨-, -, claim⟩ := h.idle w idle reported
    exact absurd (claimant idle reported) claim

theorem Steady.handOver (other : p.spared ≠ some k) : ∀ (l : List Claimant) {t : State}, (∀ x ∈ l, x ∈ t.waitList) →
    Steady p t → Steady p (handOver k l t)
  | [], _, _, h => h.waiting fun _ _ _ _ => List.not_mem_nil
  | .event e :: l, t, inside, h =>
    Steady.claimSlot other (fun _ => nofun) (h.waiting fun _ _ _ claim mem =>
      claim (inside _ (List.mem_cons_of_mem _ mem)))
  | .loss w :: l, t, inside, h => by
    have waited : Claimant.loss w ∈ t.waitList := inside _ List.mem_cons_self
    have fewer : Steady p { t with waitList := l } :=
      h.waiting fun _ _ _ claim mem => claim (inside _ (List.mem_cons_of_mem _ mem))
    have notIdle (idle : p.idle = some w) (reported : p.service ≠ some w) : False := by
      obtain ⟨-, -, claim⟩ := h.idle w idle reported
      exact claim waited
    unfold Machine.handOver
    split
    · exact fewer.grantLoss other fun idle reported => (notIdle idle reported).elim
    · exact Steady.handOver other l (fun x hx => inside x (List.mem_cons_of_mem _ hx))
        (h.modSvc_rest rfl rfl rfl fun _ => rfl)

theorem Steady.releaseSlot (other : p.spared ≠ some k) (h : Steady p t) : Steady p (releaseSlot k t) :=
  (h.emptySlot other).handOver other _ fun _ hx => hx

theorem Steady.leaveWait (c : Claimant) (h : Steady p t) : Steady p (t.leaveWait c) :=
  h.waiting fun _ _ _ claim mem => claim (List.mem_of_mem_filter mem)

/-! ### The service engine (R30, R37, R38, R40, R41) -/

/-- A slot that an event names is not the one that no event names. -/
theorem Steady.named (h : Steady p t) (slot : (t.event e).slot = some k) : p.spared ≠ some k := fun same => by
  obtain ⟨-, -, events⟩ := h.spared k same
  exact events e slot

theorem Steady.goNetwork (w : SvcId) (h : Steady p t) : Steady p (goNetwork w t) :=
  h.modSvc (fun _ => rfl) (fun cueing => nomatch (show SvcState.network = .cueing from cueing)) fun _ _ _ dark => ⟨rfl, dark⟩

theorem Steady.endCueing {o : Outcome} (f : OutFlags) (aborts : p.doomed = some e → o = .aborted) (h : Steady p t) :
    Steady p (endCueing e o f t) := by
  have gone : Steady p (Machine.goNetwork (t.event e).service (Machine.closeEvent e o f t)) :=
    (h.closeEvent f aborts).goNetwork _
  unfold Machine.endCueing dropClaim
  split
  · next k slot => exact gone.releaseSlot (h.named slot)
  · exact gone.leaveWait _

/-- A CUEING service's event is not the doomed one. -/
theorem Steady.leaveCueing {o : Outcome} (f : OutFlags) (cueing : (t.svc w).state = .cueing) (h : Steady p t) :
    Steady p (leaveCueing w o f t) := by
  unfold Machine.leaveCueing
  split
  · next e event =>
    refine h.endCueing f fun doomed => ?_
    obtain ⟨-, apart⟩ := h.doomed e doomed
    exact absurd cueing (apart w event)
  · exact h.goNetwork w

theorem Steady.dropLossSlot (w : SvcId) (h : Steady p t) : Steady p (dropLossSlot w t) := by
  unfold Machine.dropLossSlot
  cases found : lossSlot t w with
  | none => exact h
  | some k =>
    have owner : (t.slot k).owner = some (.loss w) := of_decide_eq_true (Tbl.find?_some found)
    refine h.releaseSlot fun same => ?_
    obtain ⟨owner', -, -⟩ := h.spared k same
    exact nomatch owner.symm.trans owner'

theorem mem_joinLoss {x : Claimant} : ∀ {l : List Claimant}, x ∈ joinLoss w l → x = .loss w ∨ x ∈ l
  | [], h => .inl (List.mem_singleton.1 h)
  | .event e :: l, h => (List.mem_cons.1 h).imp_right id
  | .loss u :: l, h => by
    rcases List.mem_cons.1 h with same | later
    · exact .inr (same ▸ List.mem_cons_self)
    · exact (mem_joinLoss later).imp_right (List.mem_cons_of_mem _)

theorem Steady.lossFill (reported : p.idle = some w → p.service = some w) (h : Steady p t) : Steady p (lossFill w t) := by
  have busy {P : Prop} (idle : p.idle = some w) (other : p.service ≠ some w) : P := absurd (reported idle) other
  unfold Machine.lossFill
  split
  · split
    · next k free =>
      refine h.grantLoss (fun same => ?_) fun idle other => busy idle other
      obtain ⟨owner, -, -⟩ := h.spared k same
      exact nomatch (freeSlot_some free).symm.trans owner
    · refine Steady.waiting (t := t.modSvc w _) (fun v idle other claim => ?_) (h.modSvc_rest rfl rfl rfl fun _ => rfl)
      have apart : v ≠ w := fun same => busy (same ▸ idle) (same ▸ other)
      exact fun mem => claim ((mem_joinLoss mem).resolve_left fun same => apart (Claimant.loss.inj same))
  · exact h.modSvc_rest rfl rfl rfl fun _ => rfl

end

end Sys2Proof.Machine
end

section
/-!
PROOFS. The recomputation of alert ownership (R40, R41, R145).
-/
namespace Sys2Proof.Machine
set_option Elab.async false

/-! ### The owner that a service should have (R145) -/

section
variable {s : State} {v : SvcId} {b : AlertId}

theorem mem_claimingChannels : b ∈ claimingChannels s v ↔
    (s.alert b).state ≠ .idle ∧ (s.alert b).group.getLsbD v.val = true := by
  unfold claimingChannels
  rw [Tbl.mem_indices, Bool.and_eq_true, decide_eq_true_iff]
  rfl

theorem bestChannel_none : ∀ {l : List AlertId}, bestChannel s l = none → l = []
  | [], _ => rfl
  | a :: l, h => by
    unfold bestChannel at h
    split at h
    · exact nomatch h
    · split at h
      · exact nomatch h
      · exact nomatch h

/-- The channel of highest priority in a list is in it, and none in it has a lower priority number. -/
theorem bestChannel_some : ∀ {l : List AlertId} {b : AlertId}, bestChannel s l = some b →
    b ∈ l ∧ ∀ d ∈ l, (s.alert b).rank ≤ (s.alert d).rank
  | [], _, h => nomatch h
  | a :: l, b, h => by
    unfold bestChannel at h
    split at h
    · next none =>
      have empty := bestChannel_none none
      have same : a = b := Option.some.inj h
      subst same empty
      exact ⟨List.mem_cons_self, fun d hd => by rw [List.mem_singleton.1 hd]⟩
    · next c best =>
      obtain ⟨inside, least⟩ := bestChannel_some best
      split at h
      · next lower =>
        have same : a = b := Option.some.inj h
        subst same
        refine ⟨List.mem_cons_self, fun d hd => ?_⟩
        rcases List.mem_cons.1 hd with rfl | later
        · exact le_refl _
        · exact lower.trans (least d later)
      · next higher =>
        have same : c = b := Option.some.inj h
        subst same
        refine ⟨List.mem_cons_of_mem _ inside, fun d hd => ?_⟩
        rcases List.mem_cons.1 hd with rfl | later
        · exact (Nat.lt_of_not_le higher).le
        · exact least d later

theorem ownerRight_of_due (owner : (s.svc v).owner = ownerDue s v) : OwnerRight s v := by
  unfold OwnerRight
  rw [owner]
  cases due : ownerDue s v with
  | none =>
    have none_ := bestChannel_none due
    refine fun c live => Bool.eq_false_iff.2 fun member => ?_
    have inside := mem_claimingChannels.2 ⟨(live_iff s c).1 live, member⟩
    rw [none_] at inside
    exact List.not_mem_nil inside
  | some c =>
    obtain ⟨inside, least⟩ := bestChannel_some due
    obtain ⟨live, member⟩ := mem_claimingChannels.1 inside
    exact ⟨(live_iff s c).2 live, member, fun d liveD memberD =>
      least d (mem_claimingChannels.2 ⟨(live_iff s d).1 liveD, memberD⟩)⟩

/-- No channel claims the service. -/
theorem ownerDue_none (nobody : ∀ c, (s.alert c).state ≠ .idle → (s.alert c).group.getLsbD v.val = false) :
    ownerDue s v = none := by
  cases due : ownerDue s v with
  | none => rfl
  | some c =>
    obtain ⟨inside, -⟩ := bestChannel_some due
    obtain ⟨live, member⟩ := mem_claimingChannels.1 inside
    exact nomatch member.symm.trans (nobody c live)

/-- The claiming channel of lowest priority number is due. -/
theorem ownerDue_eq (live : (s.alert b).state ≠ .idle) (member : (s.alert b).group.getLsbD v.val = true)
    (first : ∀ c, c ≠ b → (s.alert c).state ≠ .idle → (s.alert c).group.getLsbD v.val = true →
      (s.alert b).rank < (s.alert c).rank) : ownerDue s v = some b := by
  have inside := mem_claimingChannels.2 ⟨live, member⟩
  cases due : ownerDue s v with
  | none =>
    rw [bestChannel_none due] at inside
    exact absurd inside List.not_mem_nil
  | some c =>
    obtain ⟨insideC, least⟩ := bestChannel_some due
    obtain ⟨liveC, memberC⟩ := mem_claimingChannels.1 insideC
    by_contra other
    have apart : c ≠ b := fun same => other (congrArg some same)
    exact absurd (least b inside) (Nat.not_le.2 (first c apart liveC memberC))

theorem ownerDue_congr {t : State} (alerts : t.alerts = s.alerts) (v : SvcId) : ownerDue t v = ownerDue s v := by
  have alert : t.alert = s.alert := funext fun a => congrArg (Tbl.get · a) alerts
  have best (l : List AlertId) : bestChannel t l = bestChannel s l := by
    induction l with
    | nil => rfl
    | cons a l ih => simp only [bestChannel, ih, alert]
  unfold ownerDue claimingChannels
  rw [best, alerts]

end

/-! ### The report to one service (R40, R41) -/

section
variable {p : Watch} {t : State} {v : SvcId} {a : AlertId}

theorem Steady.endActivity (h : Steady p t) : Steady p (endActivity v t) := by
  unfold Machine.endActivity
  dsimp only
  split
  · exact h.modSvc_rest rfl rfl rfl id
  · split
    · exact (h.leaveWait _).modSvc_rest rfl rfl rfl id
    · exact h
  · next cueing => exact h.leaveCueing fAlert cueing
  · exact h.dropLossSlot v
  · exact h.dropLossSlot v
  · split
    · next e _ =>
      have closed : Steady p (Machine.closeEvent e .aborted (fAlert.union fTruncated) t) := h.closeEvent _ fun _ => rfl
      cases slot : (t.event e).slot with
      | none => exact closed
      | some k => exact closed.releaseSlot (h.named slot)
    · exact h
  · exact h

theorem Steady.joinOwner (v : SvcId) (a : AlertId) (h : Steady p t) : Steady p (joinOwner v a t) := by
  unfold Machine.joinOwner
  split
  · cases (t.alert a).slot with
    | none => exact h
    | some k => exact h.attachJoin k v
  · exact h

/-- A service that has gained an owner, before it joins the ring (R40). -/
def gained (v : SvcId) (a : AlertId) (t : State) : State :=
  (endActivity v t).modSvc v fun x => { x.toNetwork with state := .alert, owner := some a, insertMark := true }

/-- A service whose owner has changed, before it joins the ring (R41). -/
def changed (v : SvcId) (a : AlertId) (t : State) : State :=
  (detach v t).modSvc v fun x => { x with owner := some a, insertMark := true }

/-- A service that has lost its owner (R41). -/
def lost (v : SvcId) (t : State) : State := (detach v t).modSvc v fun x => { x.toNetwork with owner := none }

theorem Steady.gained (reported : p.service = some v) (h : Steady p t) : Steady p (gained v a t) :=
  h.endActivity.modSvc (fun other => absurd reported other) (fun cueing => nomatch (show SvcState.alert = .cueing from cueing))
    fun _ other => absurd reported other

theorem Steady.changed (reported : p.service = some v) (h : Steady p t) : Steady p (changed v a t) :=
  (h.detach v).modSvc (fun other => absurd reported other) (fun cueing => ⟨cueing, rfl⟩)
    fun _ other => absurd reported other

theorem Steady.lost (reported : p.service = some v) (h : Steady p t) : Steady p (lost v t) :=
  (h.detach v).modSvc (fun other => absurd reported other)
    (fun cueing => nomatch (show SvcState.network = .cueing from cueing)) fun _ other => absurd reported other

/-- A service without its owner goes on by its lane (R41). -/
def afterLoss (v : SvcId) (t : State) : State :=
  if t.routeOf v = none then t
  else if t.laneUp v then
    t.modSvc v fun x => { x with state := .returning, kind := some .alert, backstop := some (returnBackstop t v) }
  else lossFill v t

theorem ownerLost_eq (v : SvcId) (t : State) : ownerLost v t = afterLoss v (lost v t) := by
  have routes : ((detach v t).modSvc v fun x => { x.toNetwork with owner := none }) = lost v t := rfl
  unfold ownerLost afterLoss
  dsimp only
  rw [routes]
  cases (lost v t).routeOf v with
  | none => rfl
  | some r => rfl

theorem Steady.afterLoss (reported : p.idle = some v → p.service = some v) (h : Steady p t) :
    Steady p (afterLoss v t) := by
  unfold Machine.afterLoss
  split
  · exact h
  · split
    · exact h.modSvc (fun _ => rfl) (fun cueing => nomatch (show SvcState.returning = .cueing from cueing))
        fun idle other => absurd (reported idle) other
    · exact h.lossFill reported

theorem Steady.reportOwner (reported : p.service = some v) (h : Steady p t) : Steady p (reportOwner t v) := by
  unfold Machine.reportOwner
  split
  · next a _ _ => exact (h.gained (a := a) reported).joinOwner v a
  · next b a _ _ =>
    split
    · exact h
    · exact (h.changed (a := a) reported).joinOwner v a
  · rw [ownerLost_eq]
    exact (h.lost reported).afterLoss fun _ => reported
  · exact h

/-! ### The owner after the report -/

/-- A watch of the owners of all services, as they are. -/
def watchOwners (t : State) : Watch :=
  { alerts := t.alerts, port := t.port, service := none, owner := fun v => (t.svc v).owner, channel := 0, clips := .list []
    spared := none, released := none, closed := none, doomed := none, idle := none }

theorem steady_watchOwners (apart : ¬BetweenTransfers t) : Steady (watchOwners t) t :=
  ⟨rfl, rfl, fun _ => rfl, apart, fun _ _ => rfl, nofun, nofun, nofun, nofun, nofun⟩

theorem Steady.owner_joinOwner (v : SvcId) (a : AlertId) (h : Steady p t) :
    ((Machine.joinOwner v a t).svc v).owner = (t.svc v).owner :=
  ((steady_watchOwners h.apart).joinOwner v a).owners v nofun

theorem Steady.owner_reportOwner (reported : p.service = some v) (h : Steady p t) :
    ((Machine.reportOwner t v).svc v).owner = ownerDue t v := by
  unfold Machine.reportOwner
  split
  · next a _ due =>
    rw [due]
    refine ((h.gained (a := a) reported).owner_joinOwner v a).trans ?_
    rw [Machine.gained, State.modSvc_self]
  · next b a owner due =>
    rw [due]
    split
    · next same => exact owner.trans (congrArg some same)
    · refine ((h.changed (a := a) reported).owner_joinOwner v a).trans ?_
      rw [Machine.changed, State.modSvc_self]
  · next _ due =>
    rw [due, ownerLost_eq]
    refine (((steady_watchOwners (h.lost reported).apart).afterLoss fun idle =>
      nomatch (show none = some v from idle)).owners v nofun).trans ?_
    show ((Machine.lost v t).svc v).owner = none
    rw [Machine.lost, State.modSvc_self]
  · next owner due => rw [owner, due]

/-! ### The whole group (R145) -/

/-- The same watch with the owners as they are, and the report to one service in view. -/
def Watch.onward (p : Watch) (t : State) (v : Option SvcId) : Watch :=
  { p with service := v, owner := fun w => (t.svc w).owner }

theorem Steady.toward (v : SvcId) (h : Steady (p.onward t none) t) : Steady (p.onward t (some v)) t :=
  ⟨h.alerts, h.phase, h.fetch, h.apart, fun _ _ => rfl, h.spared, h.released, h.closed, h.doomed,
    fun w idle _ => h.idle w idle nofun⟩

theorem Steady.rested {s : State} (other : p.idle ≠ some v) (h : Steady (p.onward s (some v)) t) :
    Steady (p.onward t none) t :=
  ⟨h.alerts, h.phase, h.fetch, h.apart, fun _ _ => rfl, h.spared, h.released, h.closed, h.doomed,
    fun w idle _ => h.idle w idle fun same => other (idle.trans same.symm)⟩

/-- After the reports to a list of services each of them has its owner, the others keep theirs, and what is watched
stands. -/
theorem Steady.reports : ∀ {l : List SvcId} {t : State}, l.Nodup → (∀ w, p.idle = some w → w ∉ l) →
    Steady (p.onward t none) t → Steady (p.onward (l.foldl Machine.reportOwner t) none) (l.foldl Machine.reportOwner t) ∧
      (∀ v ∈ l, ((l.foldl Machine.reportOwner t).svc v).owner = ownerDue t v) ∧
      ∀ v, v ∉ l → ((l.foldl Machine.reportOwner t).svc v).owner = (t.svc v).owner
  | [], _, _, _, h => ⟨h, fun _ mem => absurd mem List.not_mem_nil, fun _ _ => rfl⟩
  | v :: l, t, distinct, outside, h => by
    obtain ⟨apart, rest⟩ := List.nodup_cons.1 distinct
    have toward := h.toward v
    have step : Steady (p.onward t (some v)) (Machine.reportOwner t v) := toward.reportOwner rfl
    have owner : ((Machine.reportOwner t v).svc v).owner = ownerDue t v := toward.owner_reportOwner rfl
    have notIdle : p.idle ≠ some v := fun idle => outside v idle List.mem_cons_self
    obtain ⟨steady, inside, others⟩ := Steady.reports rest
      (fun w idle mem => outside w idle (List.mem_cons_of_mem _ mem)) (step.rested notIdle)
    refine ⟨steady, fun w mem => ?_, fun w none_ => ?_⟩
    · by_cases same : w = v
      · subst same
        exact (others w apart).trans owner
      · have later := (List.mem_cons.1 mem).resolve_left same
        exact (inside w later).trans (ownerDue_congr (step.alerts.trans h.alerts.symm) w)
    · have other : w ≠ v := fun same => none_ (same ▸ List.mem_cons_self)
      have later : w ∉ l := fun mem => none_ (List.mem_cons_of_mem _ mem)
      exact (others w later).trans (step.owners w fun same => other (Option.some.inj same).symm)

theorem mem_groupList {g : BitVec 64} : v ∈ groupList g ↔ g.getLsbD v.val = true := by
  simp [groupList]

theorem groupList_nodup (g : BitVec 64) : (groupList g).Nodup := (List.nodup_finRange 64).filter _

/-- The recomputation for a group: its services have the owners they should have, the others keep theirs. -/
theorem Steady.recompute {g : BitVec 64} (outside : ∀ w, p.idle = some w → g.getLsbD w.val = false)
    (h : Steady (p.onward t none) t) :
    Steady (p.onward (Machine.recompute g t) none) (Machine.recompute g t) ∧
      (∀ v, g.getLsbD v.val = true → OwnerRight (Machine.recompute g t) v) ∧
      ∀ v, g.getLsbD v.val = false → ((Machine.recompute g t).svc v).owner = (t.svc v).owner := by
  obtain ⟨steady, inside, others⟩ := Steady.reports (groupList_nodup g)
    (fun w idle mem => nomatch (mem_groupList.1 mem).symm.trans (outside w idle)) h
  refine ⟨steady, fun v member => ownerRight_of_due ?_, fun v other => ?_⟩
  · exact (inside v (mem_groupList.2 member)).trans (ownerDue_congr (h.alerts.trans steady.alerts.symm) v)
  · exact others v fun mem => nomatch (mem_groupList.1 mem).symm.trans other

end

end Sys2Proof.Machine
end

section
/-!
PROOFS. The victim of a reclaim (R105).
-/
namespace Sys2Proof.Machine
set_option Elab.async false

section
variable {s : State} {g : BitVec 64} {k j : SlotId}

theorem adService_some {x : Slot} {states : List EventState} {v : SvcId} : adService s x states = some v ↔
    ∃ e, x.owner = some (.event e) ∧ (s.event e).state ∈ states ∧ (s.event e).service = v := by
  unfold adService
  split
  · next e owner =>
    constructor
    · intro h
      split at h
      · next mem => exact ⟨e, owner, mem, Option.some.inj h⟩
      · exact nomatch h
    · rintro ⟨d, owner', mem, service⟩
      have same : e = d := Owner.event.inj (Option.some.inj (owner.symm.trans owner'))
      subst same
      rw [if_pos mem, service]
  · next other => exact ⟨nofun, fun ⟨e, owner, _⟩ => absurd owner (other e)⟩

theorem adService_isSome {states : List EventState} :
    (adService s (s.slot k) states).isSome = true ↔ AdSlot s (fun x => x.state ∈ states) k := by
  rw [Option.isSome_iff_exists]
  constructor
  · rintro ⟨v, found⟩
    obtain ⟨e, owner, mem, -⟩ := adService_some.1 found
    exact ⟨e, owner, mem⟩
  · rintro ⟨e, owner, mem⟩
    exact ⟨_, adService_some.2 ⟨e, owner, mem, rfl⟩⟩

/-- The slot's ad event is for a service of the group, by the test of R105 step 1. -/
def inGroupTest (s : State) (g : BitVec 64) (x : Slot) : Bool :=
  match adService s x [.cueing, .active] with
  | some v => g.getLsbD v.val
  | none => false

/-- The slot is a loss fill's, by the test of R105 step 2. -/
def lossTest (x : Slot) : Bool :=
  match x.owner with
  | some (.loss _) => true
  | _ => false

theorem inGroupTest_iff : inGroupTest s g (s.slot k) = true ↔ AdSlot s (fun x =>
    (x.state = .cueing ∨ x.state = .active) ∧ g.getLsbD x.service.val = true) k := by
  unfold inGroupTest
  cases found : adService s (s.slot k) [.cueing, .active] with
  | none =>
    refine ⟨nofun, fun ⟨e, owner, states, _⟩ => ?_⟩
    have some_ := adService_some.2 ⟨e, owner, (by simpa using states :
      (s.event e).state ∈ [EventState.cueing, EventState.active]), rfl⟩
    exact nomatch found.symm.trans some_
  | some v =>
    obtain ⟨e, owner, states, service⟩ := adService_some.1 found
    constructor
    · exact fun member => ⟨e, owner, by simpa using states, by rw [service]; exact member⟩
    · rintro ⟨d, owner', -, member⟩
      have same : e = d := Owner.event.inj (Option.some.inj (owner.symm.trans owner'))
      subst same
      rw [← service]
      exact member

theorem lossTest_iff : lossTest (s.slot k) = true ↔ LossSlot s k := by
  unfold lossTest LossSlot
  split
  · next v owner => exact ⟨fun _ => ⟨v, owner⟩, fun _ => rfl⟩
  · next other => exact ⟨nofun, fun ⟨v, owner⟩ => absurd owner (other v)⟩

theorem victim_eq (s : State) (g : BitVec 64) : victim s g =
    (((s.slots.find? fun _ x => inGroupTest s g x).or (s.slots.find? fun _ x => lossTest x)).or
      (latestExit s (s.slots.indices fun _ x => (adService s x [.active]).isSome))).or
      (s.slots.find? fun _ x => (adService s x [.cueing]).isSome) := rfl

theorem latestExit_mem : ∀ {l : List SlotId} {k : SlotId}, latestExit s l = some k → k ∈ l
  | [], _, h => nomatch h
  | i :: l, k, h => by
    unfold latestExit at h
    split at h
    · exact Option.some.inj h ▸ List.mem_cons_self
    · next j found =>
      have inside : j ∈ l := latestExit_mem found
      split at h
      · split at h
        · exact Option.some.inj h ▸ List.mem_cons_of_mem _ inside
        · exact Option.some.inj h ▸ List.mem_cons_self
      · exact Option.some.inj h ▸ List.mem_cons_of_mem _ inside
      · exact Option.some.inj h ▸ List.mem_cons_self

/-- The latest exit of a list in ascending order (R105 step 3). -/
theorem latestExit_eq : ∀ {l : List SlotId}, l.Pairwise (· < ·) → k ∈ l → (∀ j ∈ l, j ≠ k → LaterExit s k j) →
    latestExit s l = some k
  | [], _, mem, _ => absurd mem List.not_mem_nil
  | i :: l, ordered, mem, best => by
    obtain ⟨below, ordered'⟩ := List.pairwise_cons.1 ordered
    have notLater {a b : Ms} (h : (a ≠ b ∧ (a - b).toNat < 2 ^ 31) ∨ a = b) : laterMs b a = false := by
      rcases h with ⟨apart, before⟩ | same
      · have after_ : ¬(b - a).toNat < 2 ^ 31 := by bv_omega
        exact Bool.and_eq_false_iff.2 (.inl (decide_eq_false after_))
      · exact Bool.and_eq_false_iff.2 (.inr (decide_eq_false (not_not.2 same.symm)))
    unfold latestExit
    by_cases same : i = k
    · subst same
      cases found : latestExit s l with
      | none => rfl
      | some j =>
        have inside : j ∈ l := latestExit_mem found
        obtain ⟨a, b, exitK, exitJ, later⟩ := best j (List.mem_cons_of_mem i inside) (below j inside).ne'
        simp only [exitK, exitJ]
        exact if_neg (ne_true_of_eq_false (notLater (later.imp_right fun h => h.1)))
    · have inside : k ∈ l := (List.mem_cons.1 mem).resolve_left (Ne.symm same)
      obtain ⟨a, b, exitK, exitI, later⟩ := best i List.mem_cons_self same
      rw [latestExit_eq ordered' inside fun j hj => best j (List.mem_cons_of_mem i hj)]
      simp only [exitK, exitI]
      rcases later with ⟨apart, after_⟩ | ⟨-, above⟩
      · exact if_pos (Bool.and_eq_true_iff.2 ⟨decide_eq_true after_, decide_eq_true apart⟩)
      · exact absurd above (not_lt.2 (below k inside).le)

/-- The four steps of R105. -/
theorem victim_of_isVictim (h : IsVictim s g k) : victim s g = some k := by
  rw [victim_eq]
  have noGroup (none_ : ∀ j, ¬AdSlot s (fun x =>
      (x.state = .cueing ∨ x.state = .active) ∧ g.getLsbD x.service.val = true) j) :
      (s.slots.find? fun _ x => inGroupTest s g x) = none :=
    Tbl.find?_none.2 fun j => Bool.eq_false_iff.2 fun test => none_ j (inGroupTest_iff.1 test)
  have noLoss (none_ : ∀ j, ¬LossSlot s j) : (s.slots.find? fun _ x => lossTest x) = none :=
    Tbl.find?_none.2 fun j => Bool.eq_false_iff.2 fun test => none_ j (lossTest_iff.1 test)
  have isActive {j : SlotId} : j ∈ (s.slots.indices fun _ x => (adService s x [.active]).isSome) ↔
      AdSlot s (fun x => x.state = .active) j := by
    rw [Tbl.mem_indices]
    refine (adService_isSome (k := j)).trans ?_
    simp only [List.mem_singleton]
  rcases h with ⟨group, lowest⟩ | ⟨none_, loss, lowest⟩ | ⟨none_, active, latest⟩ | ⟨none_, cueing, lowest⟩
  · have found : (s.slots.find? fun _ x => inGroupTest s g x) = some k :=
      Tbl.find?_eq (inGroupTest_iff.2 group) fun j hj =>
        Bool.eq_false_iff.2 fun test => lowest j hj (inGroupTest_iff.1 test)
    rw [found]
    rfl
  · have found : (s.slots.find? fun _ x => lossTest x) = some k :=
      Tbl.find?_eq (lossTest_iff.2 loss) fun j hj => Bool.eq_false_iff.2 fun test => lowest j hj (lossTest_iff.1 test)
    rw [noGroup none_, found]
    rfl
  · have found := latestExit_eq (s := s) (Tbl.idxFrom_sorted _ _ _ _) (isActive.2 active) fun j mem other =>
      latest j other (isActive.1 mem)
    rw [noGroup fun j => (none_ j).1, noLoss fun j => (none_ j).2]
    refine (congrArg (Option.or · _) (congrArg (Option.or _) found)).trans rfl
  · have empty : (s.slots.indices fun _ x => (adService s x [.active]).isSome) = [] :=
      List.eq_nil_iff_forall_not_mem.2 fun j mem => (none_ j).2.2 (isActive.1 mem)
    have isCueing {j : SlotId} : (adService s (s.slot j) [.cueing]).isSome = true ↔
        AdSlot s (fun x => x.state = .cueing) j := by
      refine adService_isSome.trans ?_
      simp only [List.mem_singleton]
    have found : (s.slots.find? fun _ x => (adService s x [.cueing]).isSome) = some k :=
      Tbl.find?_eq (isCueing.2 cueing) fun j hj => Bool.eq_false_iff.2 fun test => lowest j hj (isCueing.1 test)
    rw [noGroup fun j => (none_ j).1, noLoss fun j => (none_ j).2.1, empty, found]
    rfl

end

end Sys2Proof.Machine
end

section
/-!
PROOFS. The activation of an alert channel (R105, R106, R144).
-/
namespace Sys2Proof.Machine
set_option Elab.async false

section
variable {p : Watch} {s t : State} {a : AlertId} {k : SlotId} {e : EventId} {v : SvcId}

/-! ### A reclaim, owner's side (R106 step 1) -/

/-- The watch of an activation of channel `a`, before its slot is claimed. -/
def activation (s : State) (a : AlertId) (closed doomed : Option EventId) (idle : Option SvcId) : Watch :=
  { alerts := s.alerts, port := s.port, service := none, owner := fun v => (s.svc v).owner, channel := a
    clips := .looped (s.alert a).clip, spared := none, released := none, closed := closed, doomed := doomed, idle := idle }

/-- What is said of the owner of the slot that is taken: a CUEING event, an ACTIVE one that no CUEING service has, or an
INSERTING loss fill that does not wait. -/
structure Loses (s : State) (k : SlotId) (closed doomed : Option EventId) (idle : Option SvcId) : Prop where
  closed : ∀ e, closed = some e → (s.slot k).owner = some (.event e) ∧ (s.event e).state = .cueing
  doomed : ∀ e, doomed = some e → (s.slot k).owner = some (.event e) ∧ (s.event e).state = .active ∧
    ∀ v, (s.svc v).event = some e → (s.svc v).state ≠ .cueing
  idle : ∀ v, idle = some v → (s.slot k).owner = some (.loss v) ∧ (s.svc v).state = .inserting ∧
    Claimant.loss v ∉ s.waitList

/-- The watch that follows only the channels, the port and the owners. -/
theorem steady_activation (apart : ¬BetweenTransfers s) : Steady (activation s a none none none) s :=
  ⟨rfl, rfl, fun _ => rfl, apart, fun _ _ => rfl, nofun, nofun, nofun, nofun, nofun⟩

/-- More is watched: what is said of the slot's owner. -/
theorem Steady.watching {closed doomed : Option EventId} {idle : Option SvcId}
    (h : Steady (activation s a none none none) t) (missed : ∀ e, closed = some e → MissedByAlert e t)
    (aborted : ∀ e, doomed = some e → AbortedByAlert e t) (dark : ∀ v, idle = some v → DarkInNetwork v t) :
    Steady (activation s a closed doomed idle) t :=
  ⟨h.alerts, h.phase, h.fetch, h.apart, h.owners, nofun, nofun, missed, aborted, fun v idle _ => dark v idle⟩

/-- No event's record is watched. -/
theorem Steady.putEvents {E : Tbl Event 256} (h : Steady (activation s a none none none) t) :
    Steady (activation s a none none none) { t with events := E } :=
  ⟨h.alerts, h.phase, h.fetch, h.apart, h.owners, nofun, nofun, nofun, nofun, nofun⟩

theorem cutShort_state (x : Service) : x.cutShort.state = x.state ∨ x.cutShort.state = .returning := by
  unfold Service.cutShort
  dsimp only
  split
  · exact .inr rfl
  · exact .inl rfl

theorem cutShort_event (x : Service) : x.cutShort.event = x.event := by
  unfold Service.cutShort
  dsimp only
  split
  · rfl
  · rfl

theorem cutShort_owner (x : Service) : x.cutShort.owner = x.owner := by
  unfold Service.cutShort
  dsimp only
  split
  · rfl
  · rfl

theorem cutShort_cueing {x : Service} (cueing : x.cutShort.state = .cueing) : x.state = .cueing := by
  rcases cutShort_state x with same | returning
  · exact same.symm.trans cueing
  · exact nomatch returning.symm.trans cueing

/-- The event that loses its slot, and what is said of it (R30, R32). -/
theorem reclaimEvent_steady {closed doomed : Option EventId} {idle : Option SvcId} (apart : ¬BetweenTransfers s)
    (owner : (s.slot k).owner = some (.event e)) (loses : Loses s k closed doomed idle) :
    Steady (activation s a closed doomed idle) (reclaimEvent e s) ∧ ((reclaimEvent e s).event e).slot = none ∧
      ∀ d, d ≠ e → ((reclaimEvent e s).event d).slot = (s.event d).slot := by
  have own {d : EventId} (owner' : (s.slot k).owner = some (.event d)) : d = e :=
    Owner.event.inj (Option.some.inj (owner'.symm.trans owner))
  have noFill (v : SvcId) (h : idle = some v) : False := by
    obtain ⟨owner', -, -⟩ := loses.idle v h
    exact nomatch owner'.symm.trans owner
  by_cases cueing : (s.event e).state = .cueing
  · have step : reclaimEvent e s = goNetwork (s.event e).service (closeEvent e .missed fAlert s) := if_pos cueing
    have event : (reclaimEvent e s).event e = (s.event e).closedAs .missed fAlert := by
      rw [step, closeEvent_live (live_cueing cueing)]
      exact Tbl.get_put_self _ _ _
    have steady : Steady (activation s a none none none) (reclaimEvent e s) := by
      rw [step]
      exact ((steady_activation apart).closeEvent fAlert fun h => nomatch (show none = some e from h)).goNetwork _
    refine ⟨steady.watching (fun d hd => ?_) (fun d hd => ?_) fun v hv => (noFill v hv).elim, ?_, fun d other => ?_⟩
    · obtain ⟨owner', -⟩ := loses.closed d hd
      have same := own owner'
      subst same
      unfold MissedByAlert
      rw [event]
      exact ⟨rfl, rfl, Bool.or_true _⟩
    · obtain ⟨owner', active, -⟩ := loses.doomed d hd
      have same := own owner'
      subst same
      exact nomatch cueing.symm.trans active
    · rw [event]
      rfl
    · rw [step, closeEvent_live (live_cueing cueing)]
      exact congrArg Event.slot (Tbl.get_put_ne _ other _)
  · have step : reclaimEvent e s = ((reportActive e (some .aborted) (fAlert.union fTruncated) s).modSvc
        (s.event e).service Service.cutShort).modEvent e fun x => { x with slot := none } := if_neg cueing
    have event : (reclaimEvent e s).event e = { s.event e with
        outcome := some .aborted, flags := (s.event e).flags.union (fAlert.union fTruncated), slot := none } := by
      have reported : ((reportActive e (some .aborted) (fAlert.union fTruncated) s).modSvc
          (s.event e).service Service.cutShort).event e = { s.event e with
            outcome := some .aborted, flags := (s.event e).flags.union (fAlert.union fTruncated) } :=
        (State.modEvent_self s e fun y => { y with
          outcome := (some Outcome.aborted).or y.outcome, flags := y.flags.union (fAlert.union fTruncated) })
      rw [step, State.modEvent_self, reported]
    have steady : Steady (activation s a none none none) (reclaimEvent e s) := by
      rw [step]
      refine Steady.putEvents (Steady.modSvc (fun _ => cutShort_owner _) (fun h => ⟨cutShort_cueing h, cutShort_event _⟩)
        (fun idle => nomatch (show none = some _ from idle)) ?_)
      exact (steady_activation apart).putEvents
    refine ⟨steady.watching (fun d hd => ?_) (fun d hd => ?_) fun v hv => (noFill v hv).elim, ?_, fun d other => ?_⟩
    · obtain ⟨owner', was⟩ := loses.closed d hd
      have same := own owner'
      subst same
      exact absurd was cueing
    · obtain ⟨owner', -, nobody⟩ := loses.doomed d hd
      have same := own owner'
      subst same
      refine ⟨?_, fun v => ?_⟩
      · rw [event]
        exact ⟨rfl, by simp [OutFlags.union, fAlert], by simp [OutFlags.union, fTruncated]⟩
      · have svc : (reclaimEvent d s).svc v = (s.modSvc (s.event d).service Service.cutShort).svc v := by
          rw [step]
          rfl
        rw [svc]
        by_cases mine : v = (s.event d).service
        · rw [mine, State.modSvc_self]
          exact fun event h => nobody _ ((cutShort_event _).symm.trans event) (cutShort_cueing h)
        · rw [State.modSvc_ne _ _ mine]
          exact nobody v
    · rw [event]
    · rw [step, State.modEvent_ne _ _ other]
      exact congrArg Event.slot (State.modEvent_ne s (fun y => { y with
        outcome := (some Outcome.aborted).or y.outcome, flags := y.flags.union (fAlert.union fTruncated) }) other)

/-- The owner of a slot that is reclaimed, and what is said of it (R106 step 1). -/
theorem reclaimTold_steady {closed doomed : Option EventId} {idle : Option SvcId} (apart : ¬BetweenTransfers s)
    (named : ∀ e, (s.event e).slot = some k → (s.slot k).owner = some (.event e))
    (loses : Loses s k closed doomed idle) :
    Steady (activation s a closed doomed idle) (reclaimTold (s.slot k).owner s) ∧
      ∀ d, ((reclaimTold (s.slot k).owner s).event d).slot ≠ some k := by
  have unnamed (other : ∀ e, (s.slot k).owner ≠ some (.event e)) (d : EventId) : (s.event d).slot ≠ some k :=
    fun slot => other d (named d slot)
  have noEvent (other : ∀ e, (s.slot k).owner ≠ some (.event e)) (noFill : ∀ v, (s.slot k).owner ≠ some (.loss v)) :
      Steady (activation s a closed doomed idle) s := by
    refine (steady_activation apart).watching (fun e h => ?_) (fun e h => ?_) fun v h => ?_
    · obtain ⟨owner, -⟩ := loses.closed e h
      exact absurd owner (other e)
    · obtain ⟨owner, -⟩ := loses.doomed e h
      exact absurd owner (other e)
    · obtain ⟨owner, -⟩ := loses.idle v h
      exact absurd owner (noFill v)
  cases owner : (s.slot k).owner with
  | none =>
    rw [owner] at unnamed noEvent
    exact ⟨noEvent (fun _ => nofun) fun _ => nofun, unnamed fun _ => nofun⟩
  | some o =>
    rw [owner] at unnamed noEvent
    cases o with
    | alert b =>
      exact ⟨noEvent (fun _ => nofun) fun _ => nofun, unnamed fun _ => nofun⟩
    | event e =>
      obtain ⟨steady, gone, others⟩ := reclaimEvent_steady (a := a) apart owner loses
      refine ⟨steady, fun d => ?_⟩
      by_cases same : d = e
      · rw [same]
        exact fun slot => nomatch gone.symm.trans slot
      · intro slot
        have owner' := named d ((others d same).symm.trans slot)
        exact same (Owner.event.inj (Option.some.inj (owner'.symm.trans owner)))
    | loss v =>
      have told : ∀ d, ((reclaimLoss v s).event d).slot ≠ some k := by
        unfold reclaimLoss
        split
        · exact unnamed fun _ => nofun
        · exact unnamed fun _ => nofun
      have base : Steady (activation s a none none none) (reclaimLoss v s) := by
        unfold reclaimLoss
        split
        · exact steady_activation apart
        · exact (steady_activation apart).modSvc (fun _ => rfl)
            (fun cueing => nomatch (show SvcState.network = .cueing from cueing))
            fun idle => nomatch (show none = some _ from idle)
      refine ⟨base.watching (fun d h => ?_) (fun d h => ?_) fun w h => ?_, told⟩
      · obtain ⟨owner', -⟩ := loses.closed d h
        exact nomatch owner'.symm.trans owner
      · obtain ⟨owner', -⟩ := loses.doomed d h
        exact nomatch owner'.symm.trans owner
      · obtain ⟨owner', inserting, claim⟩ := loses.idle w h
        have same : w = v := Owner.loss.inj (Option.some.inj (owner'.symm.trans owner))
        subst same
        have step : reclaimLoss w s = s.modSvc w fun x => { x.toNetwork with dark := true } :=
          if_neg (by rw [inserting]; decide)
        show DarkInNetwork w (reclaimLoss w s)
        unfold DarkInNetwork
        rw [step, State.modSvc_self]
        exact ⟨rfl, rfl, claim⟩

end

end Sys2Proof.Machine
end

section
/-!
PROOFS. ALERT_ON of an IDLE channel (R105, R106, R144, R145).
-/
namespace Sys2Proof.Machine
set_option Elab.async false

section
variable {p : Watch} {s t : State} {a : AlertId} {k : SlotId} {closed doomed : Option EventId} {idle : Option SvcId}

/-! ### The slot of an activation -/

theorem detachAll_frame (k : SlotId) (t : State) : ∃ S, detachAll k t = { t with services := S } ∧
    ∀ v, ∃ j, Tbl.get S v = { t.svc v with slot := j } := by
  have detached (l : List Reader) (u : State) : ∃ S,
      l.foldl (fun u r => u.modSvc r.svc fun x => { x with slot := none }) u = { u with services := S } ∧
        ∀ v, ∃ j, Tbl.get S v = { u.svc v with slot := j } := by
    induction l generalizing u with
    | nil => exact ⟨u.services, rfl, fun v => ⟨(u.svc v).slot, rfl⟩⟩
    | cons r l ih =>
      obtain ⟨S, step, services⟩ := ih (u.modSvc r.svc fun x => { x with slot := none })
      refine ⟨S, step, fun v => ?_⟩
      obtain ⟨j, service⟩ := services v
      by_cases same : v = r.svc
      · subst same
        rw [State.modSvc_self] at service
        exact ⟨j, service⟩
      · rw [State.modSvc_ne _ _ same] at service
        exact ⟨j, service⟩
  exact detached _ t

/-- A slot emptied: its record, its readers' services and the port (R94). -/
theorem emptySlot_frame (k : SlotId) (t : State) : ∃ S q d,
    emptySlot k t = { t with services := S, slots := t.slots.put k Slot.reset, port := q, draws := d } ∧
      ∀ v, ∃ j, Tbl.get S v = { t.svc v with slot := j } := by
  obtain ⟨S, detached, services⟩ := detachAll_frame k t
  have gone (u : State) : ∃ q d, slotGone k u = { u with port := q, draws := d } := by
    rcases slotGone_cases k u with same | ⟨_, _, _, _, d, marked | dropped⟩
    · exact ⟨u.port, u.draws, same⟩
    · exact ⟨_, d, marked⟩
    · exact ⟨_, d, dropped⟩
  obtain ⟨q, d, left⟩ := gone ((detachAll k t).modSlot k fun _ => Slot.reset)
  refine ⟨S, q, d, left.trans ?_, services⟩
  rw [detached]
  rfl

theorem emptySlot_events (k : SlotId) (t : State) : (emptySlot k t).events = t.events := by
  obtain ⟨_, _, _, emptied, -⟩ := emptySlot_frame k t
  rw [emptied]

/-- The channel's claim of a slot that no event names (R92). -/
theorem Steady.claimAlert (unnamed : ∀ d, (t.event d).slot ≠ some k) (clips : p.clips = .looped (t.alert p.channel).clip)
    (free : p.released ≠ some k) (h : Steady p t) :
    Steady { p with spared := some k } (Machine.claimSlot k (.alert p.channel) t) where
  alerts := h.alerts
  phase := h.phase
  fetch := h.fetch
  apart := h.apart
  owners := h.owners
  spared := fun j same => by
    obtain rfl : k = j := Option.some.inj same
    have slot : (Machine.claimSlot k (.alert p.channel) t).slot k = claimedSlot t (.alert p.channel) :=
      State.modSlot_self t _ _
    refine ⟨?_, ?_, unnamed⟩
    · rw [slot]
      rfl
    · rw [slot]
      exact clips.symm
  released := fun j same => by
    have other : j ≠ k := fun h => free (same.trans (congrArg some h))
    have slot : (Machine.claimSlot k (.alert p.channel) t).slot j = t.slot j := State.modSlot_ne t _ other
    rw [slot]
    exact h.released j same
  closed := h.closed
  doomed := h.doomed
  idle := h.idle

/-- Step 1 of an activation: the slot of the statement is claimed, and what is said of its owner holds (R144). -/
theorem alertSlot_steady (apart : ¬BetweenTransfers s)
    (choice : ((s.slot k).owner = none ∧ ∀ j, j < k → (s.slot j).owner.isSome = true) ∨
      ((∀ j, (s.slot j).owner.isSome = true) ∧ IsVictim s (s.alert a).group k))
    (named : ∀ e, (s.event e).slot = some k → (s.slot k).owner = some (.event e)) :
    ∃ t, alertSlot a s = (t, some k) ∧ ∀ closed doomed idle, Loses s k closed doomed idle →
      Steady { activation s a closed doomed idle with spared := some k } t := by
  have told (closed doomed : Option EventId) (idle : Option SvcId) (loses : Loses s k closed doomed idle) :=
    reclaimTold_steady (a := a) apart named loses
  have claimed {closed doomed : Option EventId} {idle : Option SvcId} {u : State}
      (steady : Steady (activation s a closed doomed idle) u) (unnamed : ∀ d, (u.event d).slot ≠ some k) :
      Steady { activation s a closed doomed idle with spared := some k } (claimSlot k (.alert a) u) := by
    refine Steady.claimAlert unnamed ?_ nofun steady
    have alert : u.alert a = s.alert a := congrArg (Tbl.get · a) steady.alerts
    exact congrArg (fun x : Alert => ClipSource.looped x.clip) alert.symm
  unfold alertSlot
  rcases choice with ⟨free, lowest⟩ | ⟨taken, isVictim⟩
  · rw [freeSlot_eq free lowest]
    refine ⟨_, rfl, fun closed doomed idle loses => ?_⟩
    obtain ⟨steady, unnamed⟩ := told closed doomed idle loses
    rw [free] at steady unnamed
    exact claimed steady unnamed
  · rw [freeSlot_none.2 taken, victim_of_isVictim isVictim]
    refine ⟨_, rfl, fun closed doomed idle loses => ?_⟩
    obtain ⟨steady, unnamed⟩ := told closed doomed idle loses
    refine claimed (steady.emptySlot nofun) fun d => ?_
    rw [show (emptySlot k (reclaimTold (s.slot k).owner s)).event d = (reclaimTold (s.slot k).owner s).event d from
      congrArg (Tbl.get · d) (emptySlot_events k _)]
    exact unnamed d

/-! ### The channel and its services -/

/-- The channel's record is changed. -/
theorem Steady.putAlerts {A : Tbl Alert 8} (h : Steady p t) : Steady { p with alerts := A } { t with alerts := A } :=
  ⟨rfl, h.phase, h.fetch, h.apart, h.owners, h.spared, h.released, h.closed, h.doomed, h.idle⟩

theorem Steady.logged {l : List LogEntry} (h : Steady p t) : Steady p { t with log := l } :=
  ⟨h.alerts, h.phase, h.fetch, h.apart, h.owners, h.spared, h.released, h.closed, h.doomed, h.idle⟩

theorem Steady.onward_self (nobody : p.service = none) (h : Steady p t) : Steady (p.onward t none) t :=
  ⟨h.alerts, h.phase, h.fetch, h.apart, fun _ _ => rfl, h.spared, h.released, h.closed, h.doomed,
    fun v idle _ => h.idle v idle fun same => nomatch nobody.symm.trans same⟩

/-- A step that is steady for the port's fetch drops no cell of an OWNER port. -/
theorem Steady.cellDropped (port : p.port = s.port) (h : Steady p t) : cellDropped s t = false := by
  by_cases owner : t.port.phase = .owner
  · have fetch : t.port.fetch = s.port.fetch := by
      rw [← port]
      exact h.fetch (h.phase.symm.trans owner)
    exact cellDropped_of_fetch_eq fetch
  · unfold Machine.cellDropped
    rw [decide_eq_false owner]
    rfl

/-- An activation of channel `a` in slot `k` (R144). -/
def activated (s : State) (a : AlertId) (k : SlotId) : Alert :=
  { s.alert a with
    state := .active, slot := some k, faults := 0
    deadline := some (s.now + BitVec.ofNat 32 (([2, 5, 10, 20, 30, 60, 120, 300].getD (s.alert a).leaseCode.val 0) * 1000)) }

/-- An activation is the claim of its slot, the lease and the reports to its group (R144). -/
theorem activate_eq (slot : alertSlot a s = (t, some k)) (alerts : t.alerts = s.alerts) (now : t.now = s.now) :
    activate a s = oneEvent (fun _ => recompute (s.alert a).group
      { t with alerts := s.alerts.put a (activated s a k) }) s := by
  have alert : t.alert a = s.alert a := congrArg (Tbl.get · a) alerts
  have lease : (renewLease a t).modAlert a (fun x => { x with slot := some k, state := .active, faults := 0 }) =
      { t with alerts := s.alerts.put a (activated s a k) } := by
    unfold renewLease
    rw [modAlert_modAlert]
    refine congrArg (fun A => ({ t with alerts := A } : State)) ?_
    rw [alert, now, alerts]
    rfl
  have self : State.alert { t with alerts := s.alerts.put a (activated s a k) } a = activated s a k :=
    Tbl.get_put_self _ _ _
  have group : (State.alert { t with alerts := s.alerts.put a (activated s a k) } a).group = (s.alert a).group :=
    (congrArg Alert.group self).trans rfl
  unfold activate oneEvent
  dsimp only
  rw [slot]
  dsimp only
  rw [lease, group]

/-- What an activation leaves of the channels, the port, the slot, the owners and of what is said of the slot's
owner. -/
theorem activate_steady (apart : ¬BetweenTransfers s)
    (choice : ((s.slot k).owner = none ∧ ∀ j, j < k → (s.slot j).owner.isSome = true) ∨
      ((∀ j, (s.slot j).owner.isSome = true) ∧ IsVictim s (s.alert a).group k))
    (named : ∀ e, (s.event e).slot = some k → (s.slot k).owner = some (.event e)) :
    (∀ closed doomed idle, Loses s k closed doomed idle →
      (∀ v, idle = some v → (s.alert a).group.getLsbD v.val = false) →
      ∃ owner, Steady { activation s a closed doomed idle with
        spared := some k, alerts := s.alerts.put a (activated s a k), owner := owner } (activate a s)) ∧
      (∀ v, (s.alert a).group.getLsbD v.val = true → OwnerRight (activate a s) v) ∧
      ∀ v, (s.alert a).group.getLsbD v.val = false → ((activate a s).svc v).owner = (s.svc v).owner := by
  obtain ⟨t, slot, steady⟩ := alertSlot_steady apart choice named
  have base := steady none none none ⟨nofun, nofun, nofun⟩
  have now : t.now = s.now := by
    have kept : t = (alertSlot a s).1 := (congrArg Prod.fst slot).symm
    rw [kept]
    exact (Kept.alertSlot (b := false) a (Kept.refl s)).now
  have onward (closed doomed : Option EventId) (idle : Option SvcId) (loses : Loses s k closed doomed idle) :=
    ((steady closed doomed idle loses).putAlerts (A := s.alerts.put a (activated s a k))).onward_self rfl
  rw [activate_eq slot base.alerts now]
  obtain ⟨-, members, others⟩ := (onward none none none ⟨nofun, nofun, nofun⟩).recompute (g := (s.alert a).group)
    fun w idle => nomatch (show none = some w from idle)
  refine ⟨fun closed doomed idle loses outside => ?_, members, fun v other => (others v other).trans ?_⟩
  · obtain ⟨after, -, -⟩ := (onward closed doomed idle loses).recompute outside
    exact ⟨_, after.logged⟩
  · exact base.owners v nofun

/-- ALERT_ON of an IDLE channel that may be activated (R142). -/
theorem exec_alertOn_idle {x : Ctx} (cls : x.cls = 0) (idle : (s.alert a).state = .idle)
    (unmasked : (s.alert a).masked = false) (ranked : (s.alert a).priority.isSome = true) :
    exec (.alertOn x a.val) s = .next ((finishFrom s (activate a s)).codeAnswered .ok) := by
  have step : exec (.alertOn x a.val) s = .next (record (doAlertOn x a.val s)) := rfl
  rw [step, doAlertOn, entryAt_val, decide_eq_false (not_not.2 cls), refuseIf_false,
    if_neg (ne_true_of_eq_false (live_eq_false.2 idle)), unmasked, refuseIf_false,
    Option.isNone_eq_false_iff.2 ranked, refuseIf_false]
  rfl

end

/-- Settles O42: what is watched holds through the reclaim, the claim and the reports to the group. -/
theorem alertOnActivates : Obligations.AlertOnActivates := by
  intro x a k s old oldEq cls idle open_ ranked apart choice named
  subst oldEq
  obtain ⟨steady, members, others⟩ := activate_steady apart choice named
  have kept : Kept false s (activate a s) := (Kept.refl s).activate a
  obtain ⟨owners, base⟩ := steady none none none ⟨nofun, nofun, nofun⟩ nofun
  have result := exec_alertOn_idle cls idle open_ ranked
  rw [finishFrom_eq (base.cellDropped rfl)] at result
  refine ⟨_, result, rfl, ?_⟩
  obtain ⟨l, c, d, ph, after⟩ := finish_frame (activate a s)
  rw [after]
  obtain ⟨owner, clips, -⟩ := base.spared k rfl
  refine ⟨base.alerts, owner, clips, members, others, ⟨kept.routes, kept.windows, kept.clips, kept.inLanes⟩,
    ⟨kept.channels, kept.intake, kept.fault rfl, kept.pending⟩, kept.outLanes, fun e owner cueing => ?_,
    fun e owner active nobody => ?_, fun v owner inserting outside claim => ?_⟩
  · obtain ⟨_, watched⟩ := steady (some e) none none
      ⟨fun d same => Option.some.inj same ▸ ⟨owner, cueing⟩, nofun, nofun⟩ nofun
    exact watched.closed e rfl
  · obtain ⟨_, watched⟩ := steady none (some e) none
      ⟨nofun, fun d same => Option.some.inj same ▸ ⟨owner, active, nobody⟩, nofun⟩ nofun
    exact (watched.doomed e rfl).1
  · obtain ⟨_, watched⟩ := steady none none (some v)
      ⟨nofun, nofun, fun w same => Option.some.inj same ▸ ⟨owner, inserting, claim⟩⟩
      fun w same => Option.some.inj same ▸ outside
    obtain ⟨state, dark, -⟩ := watched.idle v rfl nofun
    exact ⟨state, dark⟩

end Sys2Proof.Machine
end

section
/-!
PROOFS. What a report of ownership does to the service itself (R40, R41, R94).
-/
namespace Sys2Proof.Machine
set_option Elab.async false

/-- The fields of a service that a change of a ring keeps: a mark that is set stays set. -/
structure Alike (x y : Service) : Prop where
  cfg : y.cfg = x.cfg := by rfl
  state : y.state = x.state := by rfl
  kind : y.kind = x.kind := by rfl
  owner : y.owner = x.owner := by rfl
  slot : y.slot = x.slot := by rfl
  mark : x.insertMark = true → y.insertMark = true := by exact id

section
variable {s t u : State} {v w : SvcId} {k : SlotId} {a b : AlertId}

theorem Alike.refl (x : Service) : Alike x x := {}

theorem Alike.trans {x y z : Service} (h : Alike x y) (g : Alike y z) : Alike x z :=
  ⟨g.cfg.trans h.cfg, g.state.trans h.state, g.kind.trans h.kind, g.owner.trans h.owner, g.slot.trans h.slot,
    fun marked => g.mark (h.mark marked)⟩

theorem alike_modSvc {f : Service → Service} (h : Alike (t.svc w) (f (t.svc w))) (v : SvcId) :
    Alike (t.svc v) ((t.modSvc w f).svc v) := by
  by_cases same : v = w
  · subst same
    rw [State.modSvc_self]
    exact h
  · rw [State.modSvc_ne _ _ same]
    exact Alike.refl _

theorem alike_foldl {α : Type} {f : State → α → State} (step : ∀ u a, Alike (u.svc v) ((f u a).svc v)) :
    ∀ (l : List α) (t : State), Alike (t.svc v) ((l.foldl f t).svc v)
  | [], _ => Alike.refl _
  | a :: l, t => (step t a).trans (alike_foldl step l (f t a))

/-! ### The ring (R99 to R104) -/

theorem alike_seekReaders (k : SlotId) (t : State) (v : SvcId) : Alike (t.svc v) ((seekReaders k t).svc v) := by
  refine alike_foldl (f := takeBase (t.slot k)) (fun u r => ?_) (t.slot k).readers t
  unfold takeBase
  split
  · split
    · exact alike_modSvc {} v
    · exact Alike.refl _
  · exact Alike.refl _

theorem alike_slipReaders (k : SlotId) (t : State) (v : SvcId) : Alike (t.svc v) ((slipReaders k t).svc v) := by
  unfold slipReaders
  dsimp only
  split
  · refine alike_foldl (f := noteSlip) (fun u r => ?_) (t.slot k).slipping t
    unfold noteSlip
    split
    · exact Alike.refl _
    · exact alike_modSvc { mark := fun _ => rfl } v
  · exact Alike.refl _

theorem alike_settleRing (k : SlotId) (t : State) (v : SvcId) : Alike (t.svc v) ((settleRing k t).svc v) := by
  have moved (u : State) : Alike (u.svc v) (((seekReaders k u).modSlot k Slot.moveTail).svc v) := alike_seekReaders k u v
  exact ((moved t).trans (alike_slipReaders k _ v)).trans (moved _)

/-- A service that reads no ring, else as it was. -/
theorem alike_detach (v : SvcId) (t : State) : Alike { t.svc v with slot := none } ((detach v t).svc v) := by
  unfold detach
  split
  · next none_ => exact { slot := none_ }
  · next k _ =>
    have settled := alike_settleRing k ((t.modSlot k fun x => { x with
      readers := x.readers.filter fun r => decide (r.svc ≠ v) }).modSvc v fun y => { y with slot := none }) v
    rw [State.modSvc_self] at settled
    exact settled

theorem alike_attachJoin (k : SlotId) (v : SvcId) (t : State) :
    Alike { t.svc v with slot := some k } ((attachJoin k v t).svc v) := by
  have settled := alike_settleRing k (attach k v ((t.slot k).tail + BitVec.ofNat 32 (t.slot k).fastOff) .join t) v
  refine Alike.trans ?_ settled
  unfold attach
  rw [State.modSvc_self]
  exact {}

/-! ### The slot of the channel (R94) -/

/-- A freed slot handed on leaves a service alone that does not wait. -/
theorem handOver_svc : ∀ {l : List Claimant} {t : State}, Claimant.loss v ∉ l → (handOver k l t).svc v = t.svc v
  | [], _, _ => rfl
  | .event _ :: _, _, _ => rfl
  | .loss w :: l, t, claim => by
    have other : v ≠ w := fun same => claim (same ▸ List.mem_cons_self)
    have later : Claimant.loss v ∉ l := fun mem => claim (List.mem_cons_of_mem _ mem)
    unfold handOver
    split
    · exact State.modSvc_ne _ _ other
    · rw [handOver_svc later]
      exact State.modSvc_ne _ _ other

theorem releaseSlot_svc (claim : Claimant.loss v ∉ t.waitList) :
    ∃ j, (releaseSlot k t).svc v = { t.svc v with slot := j } := by
  obtain ⟨S, q, d, emptied, services⟩ := emptySlot_frame k t
  obtain ⟨j, service⟩ := services v
  have wait : (emptySlot k t).waitList = t.waitList := by rw [emptied]
  refine ⟨j, (handOver_svc (by rw [wait]; exact claim)).trans ?_⟩
  rw [emptied]
  exact service

/-- A released slot belongs to no alert channel. -/
theorem Steady.releaseSlot_released {p : Watch} (unspared : p.spared = none) (h : Steady p t) :
    Steady { p with released := some k } (Machine.releaseSlot k t) := by
  have other : p.spared ≠ some k := fun same => nomatch unspared.symm.trans same
  have emptied : Steady p (Machine.emptySlot k t) := h.emptySlot other
  have reset : (Machine.emptySlot k t).slot k = Slot.reset := by
    obtain ⟨_, _, _, frame, -⟩ := emptySlot_frame k t
    rw [frame]
    exact Tbl.get_put_self _ _ _
  have free : Steady { p with released := some k } (Machine.emptySlot k t) :=
    { emptied with
      released := fun j same owner => by
        obtain rfl : k = j := Option.some.inj same
        rw [reset] at owner
        exact nomatch owner }
  exact Steady.handOver (p := { p with released := some k }) other _ (fun _ hx => hx) free

/-! ### The owner changed and lost (R41) -/

theorem routeOf_congr (routes : u.routes = t.routes) (v : SvcId) : u.routeOf v = t.routeOf v :=
  congrArg (fun r : Tbl Route 256 => r.find? fun _ r => decide (r.state = .active ∧ r.service = some v)) routes

theorem laneUp_congr (routes : u.routes = t.routes) (lanes : u.inLanes = t.inLanes) (v : SvcId) :
    u.laneUp v = t.laneUp v := by
  unfold State.laneUp
  rw [routeOf_congr routes]
  cases t.routeOf v with
  | none => rfl
  | some r =>
    dsimp only
    unfold State.route State.inLane
    rw [routes, lanes]

/-- An owner changed: the service carries the insert mark and reads the ring of the new owner. -/
theorem reportOwner_changed (apart : ¬BetweenTransfers t) (owner : (t.svc v).owner = some a)
    (due : ownerDue t v = some b) (other : a ≠ b) :
    ((reportOwner t v).svc v).owner = some b ∧ ((reportOwner t v).svc v).insertMark = true ∧
      ((reportOwner t v).svc v).state = (t.svc v).state ∧
      ∀ j, (t.routeOf v).isSome = true → (t.alert b).slot = some j → ((reportOwner t v).svc v).slot = some j := by
  have step : reportOwner t v = joinOwner v b (changed v b t) := by
    unfold reportOwner
    rw [owner, due]
    exact if_neg other
  have detached := alike_detach v t
  have service : (changed v b t).svc v = { (detach v t).svc v with owner := some b, insertMark := true } :=
    State.modSvc_self _ _ _
  have routes : (changed v b t).routeOf v = t.routeOf v := routeOf_congr ((Kept.refl (b := false) t).detach v).routes v
  have alerts : (changed v b t).alert b = t.alert b := congrArg (Tbl.get · b) ((steady_watchOwners apart).detach v).alerts
  have unjoined : ((changed v b t).svc v).owner = some b ∧ ((changed v b t).svc v).insertMark = true ∧
      ((changed v b t).svc v).state = (t.svc v).state := by
    rw [service]
    exact ⟨rfl, rfl, detached.state⟩
  rw [step]
  unfold joinOwner
  rw [routes, alerts]
  split
  · cases (t.alert b).slot with
    | none =>
      obtain ⟨owned, marked, state⟩ := unjoined
      exact ⟨owned, marked, state, fun _ _ => nofun⟩
    | some j =>
      have joined := alike_attachJoin j v (changed v b t)
      obtain ⟨owned, marked, state⟩ := unjoined
      exact ⟨joined.owner.trans owned, joined.mark marked, joined.state.trans state,
        fun i _ same => joined.slot.trans same⟩
  · next unrouted =>
    obtain ⟨owned, marked, state⟩ := unjoined
    exact ⟨owned, marked, state, fun _ routed => absurd routed unrouted⟩

/-- A loss fill leaves the service's owner and the ring that it reads. -/
theorem lossFill_seat (v : SvcId) (t : State) :
    ((lossFill v t).svc v).owner = (t.svc v).owner ∧ ((lossFill v t).svc v).slot = (t.svc v).slot := by
  unfold lossFill
  split
  · split
    · unfold grantLoss
      rw [State.modSvc_self]
      exact ⟨rfl, rfl⟩
    · have waiting := State.modSvc_self t v fun x => { x with dark := true, lossWaiting := true }
      have owner := congrArg Service.owner waiting
      have slot := congrArg Service.slot waiting
      exact ⟨owner, slot⟩
  · rw [State.modSvc_self]
    exact ⟨rfl, rfl⟩

/-- An owner lost: the service reads no ring; it returns, if its lane is UP, and else goes dark without a loss clip. -/
theorem reportOwner_lost (owner : (t.svc v).owner = some a) (due : ownerDue t v = none) :
    ((reportOwner t v).svc v).owner = none ∧ ((reportOwner t v).svc v).slot = none ∧
      (t.laneUp v = true → ((reportOwner t v).svc v).state = .returning ∧
        ((reportOwner t v).svc v).kind = some .alert ∧
        ((reportOwner t v).svc v).backstop = some (returnBackstop t v)) ∧
      (t.laneUp v = false → (t.svc v).cfg.lossClip = none → ((reportOwner t v).svc v).state = .network ∧
        ((t.routeOf v).isSome = true → ((reportOwner t v).svc v).dark = true)) := by
  have step : reportOwner t v = afterLoss v (lost v t) := by
    unfold reportOwner
    rw [owner, due]
    exact ownerLost_eq v t
  have detached := alike_detach v t
  have kept : Kept false t (lost v t) := Kept.rest ((Kept.refl t).detach v)
  have service : (lost v t).svc v = { ((detach v t).svc v).toNetwork with owner := none } := State.modSvc_self _ _ _
  have slot : ((lost v t).svc v).slot = none := by
    rw [service]
    exact detached.slot
  have cfg : ((lost v t).svc v).cfg = (t.svc v).cfg := by
    rw [service]
    exact detached.cfg
  have unowned : ((lost v t).svc v).owner = none := by rw [service]
  have network : ((lost v t).svc v).state = .network := by
    rw [service]
    rfl
  rw [step]
  unfold afterLoss
  rw [routeOf_congr kept.routes, laneUp_congr kept.routes kept.inLanes]
  split
  · next unrouted =>
    refine ⟨unowned, slot, fun up => ?_, fun _ _ => ⟨network, fun routed => ?_⟩⟩
    · unfold State.laneUp at up
      rw [unrouted] at up
      exact nomatch up
    · rw [unrouted] at routed
      exact nomatch routed
  · split
    · next up =>
      rw [State.modSvc_self]
      refine ⟨unowned, slot, fun _ => ⟨rfl, rfl, ?_⟩, fun down => nomatch up.symm.trans down⟩
      unfold returnBackstop
      rw [kept.now, cfg]
    · next down =>
      obtain ⟨sameOwner, sameSlot⟩ := lossFill_seat v (lost v t)
      refine ⟨sameOwner.trans unowned, sameSlot.trans slot, fun up => absurd up down, fun _ noClip => ?_⟩
      rw [lossFill_none (cfg ▸ noClip)]
      unfold State.svc
      rw [Tbl.get_put_self]
      exact ⟨network, fun _ => rfl⟩

end

end Sys2Proof.Machine
end

section
/-!
PROOFS. The end of an alert channel (R148, R150, R151, R145).
-/
namespace Sys2Proof.Machine
set_option Elab.async false

section
variable {s t : State} {v : SvcId} {a b : AlertId}

theorem groupList_single {g : BitVec 64} (only : ∀ w : SvcId, g.getLsbD w.val = true ↔ w = v) : groupList g = [v] := by
  refine List.perm_singleton.1 ((List.perm_ext_iff_of_nodup (groupList_nodup g) (List.nodup_singleton v)).2 fun w => ?_)
  rw [mem_groupList, only w, List.mem_singleton]

/-- A channel after its end (R151). -/
def ceased (x : Alert) : Alert := { x with state := .idle, deadline := none, slot := none }

/-- A channel ended, before the reports to its services (R151). -/
def unclaimed (a : AlertId) (s : State) : State := (onSlot (s.alert a).slot releaseSlot s).modAlert a ceased

theorem steady_unclaimed (apart : ¬BetweenTransfers s) :
    Steady { activation s a none none none with
      released := (s.alert a).slot, alerts := s.alerts.put a (ceased (s.alert a)) } (unclaimed a s) := by
  have released : Steady { activation s a none none none with released := (s.alert a).slot }
      (onSlot (s.alert a).slot releaseSlot s) := by
    cases (s.alert a).slot with
    | none => exact steady_activation apart
    | some k => exact (steady_activation apart).releaseSlot_released rfl
  have step : unclaimed a s = { onSlot (s.alert a).slot releaseSlot s with
      alerts := s.alerts.put a (ceased (s.alert a)) } := by
    have alerts : (onSlot (s.alert a).slot releaseSlot s).alerts = s.alerts := released.alerts
    refine congrArg (fun A => ({ onSlot (s.alert a).slot releaseSlot s with alerts := A } : State)) ?_
    unfold State.alert at alerts ⊢
    rw [alerts]
  rw [step]
  exact released.putAlerts

theorem unclaimed_alert_self (apart : ¬BetweenTransfers s) : (unclaimed a s).alert a = ceased (s.alert a) :=
  (congrArg (Tbl.get · a) (steady_unclaimed apart).alerts).trans (Tbl.get_put_self _ _ _)

theorem unclaimed_alert_ne (apart : ¬BetweenTransfers s) (other : b ≠ a) : (unclaimed a s).alert b = s.alert b :=
  (congrArg (Tbl.get · b) (steady_unclaimed apart).alerts).trans (Tbl.get_put_ne _ other _)

theorem kept_unclaimed (a : AlertId) (s : State) : Kept false s (unclaimed a s) :=
  (Kept.onSlot (fun k _ hu => hu.releaseSlot k) (Kept.refl s)).rest

theorem unclaimed_svc (claim : Claimant.loss v ∉ s.waitList) : ∃ j, (unclaimed a s).svc v = { s.svc v with slot := j } := by
  show ∃ j, (onSlot (s.alert a).slot releaseSlot s).svc v = _
  cases (s.alert a).slot with
  | none => exact ⟨_, rfl⟩
  | some k => exact releaseSlot_svc claim

/-- The end of a channel is the end of its claims and the reports to its group (R151). -/
theorem endChannel_eq (apart : ¬BetweenTransfers s) :
    ∃ l, endChannel a s = { recompute (s.alert a).group (unclaimed a s) with log := l } := by
  have group : ((unclaimed a s).alert a).group = (s.alert a).group := by
    rw [unclaimed_alert_self apart]
    rfl
  have step : endChannel a s = oneEvent (fun s => recompute ((unclaimed a s).alert a).group (unclaimed a s)) s := rfl
  unfold oneEvent at step
  dsimp only at step
  rw [group] at step
  exact ⟨_, step⟩

/-- What the end of a channel leaves of the channels, the port, its slot and the owners. -/
theorem endChannel_steady (apart : ¬BetweenTransfers s) :
    (∃ owner, Steady { activation s a none none none with
      released := (s.alert a).slot, alerts := s.alerts.put a (ceased (s.alert a)), owner := owner } (endChannel a s)) ∧
      (∀ v, (s.alert a).group.getLsbD v.val = true → OwnerRight (endChannel a s) v) ∧
      ∀ v, (s.alert a).group.getLsbD v.val = false → ((endChannel a s).svc v).owner = (s.svc v).owner := by
  obtain ⟨l, step⟩ := endChannel_eq (a := a) apart
  have base := steady_unclaimed (a := a) apart
  obtain ⟨steady, members, others⟩ := (base.onward_self rfl).recompute (g := (s.alert a).group)
    fun w idle => nomatch (show none = some w from idle)
  rw [step]
  exact ⟨⟨_, steady.logged⟩, members, fun v other => (others v other).trans (base.owners v nofun)⟩

/-- The one service of the group after the end of the channel: the report to it (R145). -/
theorem endChannel_svc (apart : ¬BetweenTransfers s)
    (only : ∀ w : SvcId, (s.alert a).group.getLsbD w.val = true ↔ w = v) :
    (endChannel a s).svc v = (reportOwner (unclaimed a s) v).svc v := by
  obtain ⟨l, step⟩ := endChannel_eq (a := a) apart
  rw [step, recompute, groupList_single only]
  rfl

/-- The one service of a group that no other channel claims loses its owner (R41). -/
theorem endChannel_lost (apart : ¬BetweenTransfers s)
    (only : ∀ w : SvcId, (s.alert a).group.getLsbD w.val = true ↔ w = v) (owner : (s.svc v).owner = some a)
    (claim : Claimant.loss v ∉ s.waitList)
    (nobody : ∀ b, b ≠ a → (s.alert b).state ≠ .idle → (s.alert b).group.getLsbD v.val = false) :
    ((endChannel a s).svc v).owner = none ∧ ((endChannel a s).svc v).slot = none ∧
      (s.laneUp v = true → ((endChannel a s).svc v).state = .returning ∧
        ((endChannel a s).svc v).kind = some .alert ∧
        ((endChannel a s).svc v).backstop = some (deadlineFor s.now (s.svc v).cfg.returnWindow)) ∧
      (s.laneUp v = false → (s.svc v).cfg.lossClip = none → ((endChannel a s).svc v).state = .network ∧
        ((s.routeOf v).isSome = true → ((endChannel a s).svc v).dark = true)) := by
  have kept := kept_unclaimed a s
  obtain ⟨j, service⟩ := unclaimed_svc (a := a) claim
  have owner' : ((unclaimed a s).svc v).owner = some a := (congrArg Service.owner service).trans owner
  have due : ownerDue (unclaimed a s) v = none := by
    refine ownerDue_none fun c live => ?_
    by_cases same : c = a
    · subst same
      rw [unclaimed_alert_self apart] at live
      exact absurd rfl live
    · rw [unclaimed_alert_ne apart same] at live ⊢
      exact nobody c same live
  have report := reportOwner_lost owner' due
  have backstop : returnBackstop (unclaimed a s) v = deadlineFor s.now (s.svc v).cfg.returnWindow := by
    unfold returnBackstop
    rw [kept.now, service]
    rfl
  rw [laneUp_congr kept.routes kept.inLanes, routeOf_congr kept.routes, backstop,
    congrArg Service.cfg service] at report
  rw [endChannel_svc apart only]
  exact report

/-- The one service of a group that another channel claims goes to that of the highest priority (R41). -/
theorem endChannel_changed (apart : ¬BetweenTransfers s)
    (only : ∀ w : SvcId, (s.alert a).group.getLsbD w.val = true ↔ w = v) (owner : (s.svc v).owner = some a)
    (claim : Claimant.loss v ∉ s.waitList) (other : b ≠ a) (live : (s.alert b).state ≠ .idle)
    (member : (s.alert b).group.getLsbD v.val = true)
    (first : ∀ c, c ≠ b → c ≠ a ∧ (s.alert c).state ≠ .idle ∧ (s.alert c).group.getLsbD v.val = true →
      (s.alert b).rank < (s.alert c).rank) :
    ((endChannel a s).svc v).owner = some b ∧ ((endChannel a s).svc v).insertMark = true ∧
      ((endChannel a s).svc v).state = (s.svc v).state ∧
      ∀ j, (s.routeOf v).isSome = true → (s.alert b).slot = some j → ((endChannel a s).svc v).slot = some j := by
  have alert := unclaimed_alert_ne (s := s) apart other
  obtain ⟨j, service⟩ := unclaimed_svc (a := a) claim
  have owner' : ((unclaimed a s).svc v).owner = some a := (congrArg Service.owner service).trans owner
  have due : ownerDue (unclaimed a s) v = some b := by
    refine ownerDue_eq (by rw [alert]; exact live) (by rw [alert]; exact member) fun c apartB liveC memberC => ?_
    by_cases same : c = a
    · subst same
      rw [unclaimed_alert_self apart] at liveC
      exact absurd rfl liveC
    · rw [unclaimed_alert_ne apart same] at liveC memberC ⊢
      rw [alert]
      exact first c apartB ⟨same, liveC, memberC⟩
  have report := reportOwner_changed (steady_unclaimed apart).apart owner' due other.symm
  rw [routeOf_congr (kept_unclaimed a s).routes, alert, congrArg Service.state service] at report
  rw [endChannel_svc apart only]
  exact report

theorem routeOf_isSome {r : RouteId} (active : (s.route r).state = .active) (service : (s.route r).service = some v) :
    (s.routeOf v).isSome = true := by
  cases found : s.routeOf v with
  | none => exact absurd ⟨active, service⟩ (routeOf_none.1 found r)
  | some q => rfl

end

/-- Settles O45: both ways to end are the end of the channel, in states that differ in the channel's record and what is
due. -/
theorem alertChannelsEnd : Obligations.AlertChannelsEnd := by
  intro x a i s old oldEq ended
  subst oldEq
  have off (j : Nat) : exec (.alertOff x j) s = .next (record (doAlertOff x j s)) := rfl
  have ends (D : List Due) (A : Tbl Alert 8) (slot : (A.get a).slot = (s.alert a).slot)
      (group : (A.get a).group = (s.alert a).group) (others : ∀ b, b ≠ a → A.get b = s.alert b)
      (apart : ¬BetweenTransfers s) :
      ∃ t, finishFrom { s with due := D } (endChannel a { s with due := D, alerts := A }) = t ∧
        t.alerts = A.put a (ceased (A.get a)) ∧ t.lastResult = s.lastResult ∧
        ∀ o, ended { t with lastResult := o } := by
    obtain ⟨⟨owners, steady⟩, members, kept⟩ := endChannel_steady (s := { s with due := D, alerts := A }) (a := a) apart
    have frame : Kept false { s with due := D, alerts := A } (endChannel a { s with due := D, alerts := A }) :=
      (Kept.refl _).endChannel a
    obtain ⟨l, c, d, ph, after⟩ := finish_frame (endChannel a { s with due := D, alerts := A })
    refine ⟨_, (finishFrom_eq (steady.cellDropped rfl)).trans after, steady.alerts, frame.lastResult, fun o => ?_⟩
    refine ⟨fun k held => steady.released k (slot.trans held), fun v member => members v (group ▸ member),
      fun v other => kept v (group ▸ other), ⟨frame.routes, frame.windows, frame.clips, frame.inLanes⟩,
      ⟨frame.channels, frame.intake, frame.fault rfl, frame.pending⟩, frame.outLanes, fun v only owner claim => ?_⟩
    have only' : ∀ w : SvcId, (A.get a).group.getLsbD w.val = true ↔ w = v := group ▸ only
    refine ⟨fun nobody => ?_, fun b ⟨other, live, member⟩ first => ?_⟩
    · obtain ⟨owned, seat, up, down⟩ := endChannel_lost (s := { s with due := D, alerts := A }) apart only' owner claim
        fun b other live => by
          refine Bool.eq_false_iff.2 fun member => nobody b ⟨other, ?_, ?_⟩
          · rw [← others b other]
            exact live
          · rw [← others b other]
            exact member
      refine ⟨owned, seat, up, fun isDown noClip => ?_⟩
      obtain ⟨network, dark⟩ := down isDown noClip
      exact ⟨network, fun r active service => dark (routeOf_isSome (s := s) active service)⟩
    · have record : ({ s with due := D, alerts := A } : State).alert b = s.alert b := others b other
      obtain ⟨owned, mark, state, seat⟩ := endChannel_changed (s := { s with due := D, alerts := A }) (b := b) apart only'
        owner claim other (by rw [record]; exact live) (by rw [record]; exact member) fun c apartB ⟨apartA, liveC, memberC⟩ => by
          have recordC : ({ s with due := D, alerts := A } : State).alert c = s.alert c := others c apartA
          rw [recordC] at liveC memberC ⊢
          rw [record]
          exact first c apartB ⟨apartA, liveC, memberC⟩
      refine ⟨owned, mark, state, fun r j active service held => ?_⟩
      exact seat j (routeOf_isSome (s := s) active service) (by rw [record]; exact held)
  refine ⟨fun cls live apart => ?_, fun d due live deadline passed apart => ?_, fun cls idle => ?_, fun cls => ?_,
    fun beyond => ?_⟩
  · obtain ⟨t, step, alerts, -, done⟩ := ends s.due s.alerts rfl rfl (fun _ _ => rfl) apart
    refine ⟨t.codeAnswered .ok, ?_, done _, rfl, alerts⟩
    rw [off, doAlertOff, entryAt_val, decide_eq_false (not_not.2 cls), refuseIf_false, (live_iff s a).2 live, ← step]
    rfl
  · obtain ⟨t, step, alerts, result, done⟩ := ends (s.due.erase (.lease a))
      (s.alerts.put a { s.alert a with lapsed := true }) (by rw [Tbl.get_put_self]) (by rw [Tbl.get_put_self])
      (fun b other => Tbl.get_put_ne _ other _) apart
    refine ⟨t, ?_, done t.lastResult, result, ?_⟩
    · have lapses : leasePassed (s.taking (.lease a)) a = true := leasePassed_iff.2 ⟨live, d, deadline, passed⟩
      have taken : exec (.leaseLapse a) s = .next (leaseCheck a (s.taking (.lease a))) :=
        congrArg Host.Outcome.next (takeDue_of_mem due)
      rw [taken, leaseCheck, if_pos lapses, ← step]
      rfl
    · rw [alerts, Tbl.put_put, Tbl.get_put_self]
      rfl
  · rw [off, doAlertOff, entryAt_val, decide_eq_false (not_not.2 cls), refuseIf_false, live_eq_false.2 idle]
    rfl
  · rw [off, doAlertOff, entryAt_val, decide_eq_true cls]
    rfl
  · rw [off, doAlertOff, entryAt_ge beyond]
    rfl

end Sys2Proof.Machine
end

section
/-!
PROOFS. The activation of a channel for one NETWORK service (R40, R99, R144, R147).
-/
namespace Sys2Proof.Machine
set_option Elab.async false

section
variable {s : State} {v : SvcId} {k : SlotId} {a : AlertId}

/-! ### A reader joins an empty ring (R99, R101) -/

theorem Slot.passes_empty {x : Slot} (empty : x.ring = []) (r : Reader) : x.passes r = 0 := by
  simp [Slot.passes, Slot.ahead, empty]

theorem Slot.stopCell_empty {x : Slot} (empty : x.ring = []) (r : Reader) : x.stopCell r = none := by
  simp [Slot.stopCell, Slot.ahead, empty]

theorem Slot.sought_empty {x : Slot} (empty : x.ring = []) (r : Reader) : x.sought r = r := by
  unfold Slot.sought
  rw [x.passes_empty empty, x.stopCell_empty empty]
  split
  · rfl
  · simp

/-- In an empty ring no reader passes a cell (R101). -/
theorem seekReaders_empty (empty : (s.slot k).ring = []) : seekReaders k s = s := by
  have noBase (l : List Reader) : l.foldl (takeBase (s.slot k)) s = s := by
    induction l with
    | nil => rfl
    | cons r l ih =>
      have taken : takeBase (s.slot k) s r = s := by
        unfold takeBase
        rw [Slot.stopCell_empty empty]
        split
        · rfl
        · rfl
      rw [List.foldl_cons, taken]
      exact ih
  have sought : (s.slot k).readers.map (s.slot k).sought = (s.slot k).readers :=
    (List.map_congr_left fun r _ => Slot.sought_empty empty r).trans (List.map_id _)
  unfold seekReaders
  dsimp only
  rw [noBase]
  exact modSlot_eq_self (by rw [sought])

/-- An empty ring with one reader at its tail stays as it is (R100, R101, R104). -/
theorem settleRing_joining {r : Reader} (empty : (s.slot k).ring = []) (reader : (s.slot k).readers = [r])
    (tail : r.pos = (s.slot k).tail) : settleRing k s = s := by
  have moved : s.modSlot k Slot.moveTail = s := by
    refine modSlot_eq_self ?_
    rw [Slot.moveTail_one reader, tail, empty, List.drop_nil, ← empty]
  unfold settleRing
  dsimp only
  rw [seekReaders_empty empty, moved, slipReaders_few (by rw [reader]; exact Nat.lt_succ_self 1),
    seekReaders_empty empty, moved]

/-- The first reader of an empty ring stands at its tail (R99, R136). -/
theorem attachJoin_first (empty : (s.slot k).ring = []) (unread : (s.slot k).readers = []) :
    attachJoin k v s = { s with
      slots := s.slots.put k { s.slot k with readers := [⟨v, (s.slot k).tail, .join⟩] }
      services := s.services.put v { s.svc v with slot := some k, shedLevel := 0, shedPattern := 0, lateness := 0 } } := by
  have fast : (s.slot k).fastOff = 0 := by
    unfold Slot.fastOff
    rw [unread]
    rfl
  have attached : attach k v ((s.slot k).tail + BitVec.ofNat 32 (s.slot k).fastOff) .join s = { s with
      slots := s.slots.put k { s.slot k with readers := [⟨v, (s.slot k).tail, .join⟩] }
      services := s.services.put v { s.svc v with slot := some k, shedLevel := 0, shedPattern := 0, lateness := 0 } } := by
    have first : (s.slot k).readers ++ [⟨v, (s.slot k).tail, .join⟩] = [⟨v, (s.slot k).tail, .join⟩] := by
      rw [unread]
      rfl
    rw [fast, show (s.slot k).tail + BitVec.ofNat 32 0 = (s.slot k).tail from BitVec.add_zero _]
    unfold attach State.modSlot
    dsimp only
    rw [first]
    rfl
  have slot (S : Tbl Service 64) : State.slot { s with
      slots := s.slots.put k { s.slot k with readers := [⟨v, (s.slot k).tail, .join⟩] }, services := S } k =
        { s.slot k with readers := [⟨v, (s.slot k).tail, .join⟩] } := Tbl.get_put_self _ _ _
  unfold attachJoin
  dsimp only
  rw [attached]
  exact settleRing_joining (r := ⟨v, (s.slot k).tail, .join⟩) (by rw [slot]; exact empty) (by rw [slot]) (by rw [slot])

/-- A NETWORK service without a claim has no activity to end when it gains an owner (R40). -/
theorem reportOwner_network {r : RouteId} (state : (s.svc v).state = .network) (waiting : (s.svc v).lossWaiting = false)
    (unowned : (s.svc v).owner = none) (due : ownerDue s v = some a) (slot : (s.alert a).slot = some k)
    (active : (s.route r).state = .active) (service : (s.route r).service = some v) :
    reportOwner s v = attachJoin k v (s.modSvc v fun y =>
      { y.toNetwork with state := .alert, owner := some a, insertMark := true }) := by
  have resting : endActivity v s = s := by
    unfold endActivity
    dsimp only
    rw [state, waiting]
    rfl
  have joins : (State.routeOf (s.modSvc v fun y =>
      { y.toNetwork with state := .alert, owner := some a, insertMark := true }) v).isSome = true :=
    routeOf_isSome (s := s) active service
  have gains : reportOwner s v = ownerGained v a s := by
    unfold reportOwner
    rw [unowned, due]
  rw [gains, ownerGained, joinOwner, resting, if_pos joins]
  show onSlot (s.alert a).slot _ _ = _
  rw [slot]
  rfl

/-- A NETWORK service in ALERT, the first reader of its owner's empty ring (R40, R99). -/
theorem reportOwner_first {r : RouteId} (state : (s.svc v).state = .network) (waiting : (s.svc v).lossWaiting = false)
    (unowned : (s.svc v).owner = none) (due : ownerDue s v = some a) (slot : (s.alert a).slot = some k)
    (active : (s.route r).state = .active) (service : (s.route r).service = some v) (empty : (s.slot k).ring = [])
    (unread : (s.slot k).readers = []) :
    reportOwner s v = { s with
      slots := s.slots.put k { s.slot k with readers := [⟨v, (s.slot k).tail, .join⟩] }
      services := s.services.put v { (s.svc v).toNetwork with
        state := .alert, owner := some a, insertMark := true, slot := some k, shedLevel := 0, shedPattern := 0
        lateness := 0 } } := by
  rw [reportOwner_network state waiting unowned due slot active service, attachJoin_first (by exact empty) (by exact unread),
    State.modSvc_self]
  unfold State.modSvc
  dsimp only
  rw [Tbl.put_put]
  rfl

end

/-- Settles O43: the slot is FREE, and the one service of the group is in NETWORK without an activity to end. -/
theorem alertTakesANetworkService : Obligations.AlertTakesANetworkService := by
  intro x a k v r s old svc oldEq cls idle open_ ranked free lowest only others svcEq network waiting unowned active service
  subst oldEq svcEq
  have single : groupList (s.alert a).group = [v] := groupList_single only
  have claimed : claimSlot k (.alert a) s = { s with slots := s.slots.put k { Slot.reset with
      owner := some (.alert a), clips := .looped (s.alert a).clip, unitInt := (s.svc v).cfg.unitInt
      unitFrac := (s.svc v).cfg.unitFrac } } := by
    show s.modSlot k (fun _ => claimedSlot s (.alert a)) = _
    unfold claimedSlot unitService
    dsimp only
    rw [single]
    rfl
  have slot : alertSlot a s = (claimSlot k (.alert a) s, some k) := by
    unfold alertSlot
    rw [freeSlot_eq free lowest]
  have reports := activate_eq slot (by rw [claimed]) (by rw [claimed])
  rw [claimed, recompute, single, List.foldl_cons, List.foldl_nil] at reports
  have self (S : Tbl Slot 16) : State.alert { s with slots := S, alerts := s.alerts.put a (activated s a k) } a =
      activated s a k := Tbl.get_put_self _ _ _
  have due (S : Tbl Slot 16) :
      ownerDue { s with slots := S, alerts := s.alerts.put a (activated s a k) } v = some a := by
    refine ownerDue_eq (by rw [self]; exact nofun) (by rw [self]; exact (only v).2 rfl) fun c other live member => ?_
    have alert : State.alert { s with slots := S, alerts := s.alerts.put a (activated s a k) } c = s.alert c :=
      Tbl.get_put_ne _ other _
    rw [alert] at live member
    rcases others c other with still | outside
    · exact absurd still live
    · exact nomatch member.symm.trans outside
  have report (y : Slot) (empty : y.ring = []) (unread : y.readers = []) :
      reportOwner { s with slots := s.slots.put k y, alerts := s.alerts.put a (activated s a k) } v = { s with
        alerts := s.alerts.put a (activated s a k)
        slots := s.slots.put k { y with readers := [⟨v, y.tail, .join⟩] }
        services := s.services.put v { (s.svc v).toNetwork with
          state := .alert, owner := some a, insertMark := true, slot := some k, shedLevel := 0, shedPattern := 0
          lateness := 0 } } := by
    have own : State.slot { s with slots := s.slots.put k y, alerts := s.alerts.put a (activated s a k) } k = y :=
      Tbl.get_put_self _ _ _
    rw [reportOwner_first (s := { s with slots := s.slots.put k y, alerts := s.alerts.put a (activated s a k) }) (r := r)
      network waiting unowned (due _) (by rw [self]; rfl) active service
      (by rw [own]; exact empty) (by rw [own]; exact unread), own]
    dsimp only
    rw [Tbl.put_put]
    rfl
  have taken := reports.trans (oneEvent_eq (report _ rfl rfl) (.inl rfl))
  refine ⟨finishFrom s (activate a s), exec_alertOn_idle cls idle open_ ranked, ?_⟩
  rw [taken]
  exact finishFrom_followed rfl

end Sys2Proof.Machine
end
